-- ==== Sys2Proof/Word.lean ====
section
/-! DEFINITION. The word types of the block: 16-bit registers, 8-bit register addresses, 32-bit command words
(R10, R50, R89). -/

namespace Sys2Proof

/-- The content of one device register (R10: register width 16 bits). -/
abbrev Word := BitVec 16

/-- A register address or one byte on the I2C wire (R10: register address width 8 bits). -/
abbrev Byte := BitVec 8

/-- One command word of the host (R89). -/
abbrev CommandWord := BitVec 32

end Sys2Proof
end

