-- ==== Sys2Proof/Syntax.lean ====
section
/-! DEFINITION. The 30 operations, one constructor per row of spec/opcode_table.json (R92). An operand has the width
of its field in the command word (R90); wide operands travel on the side ports OPT and OPQ (R91), which are State. -/

namespace Sys2Proof

/-- One operation of the host with its operands as the command word carries them (R90, R92). -/
inductive Instr where
  /-- SET_AVG, opcode 0x01, R102. -/
  | setAvg (count : BitVec 16)
  /-- SET_CT, opcode 0x02, R103: `sel` 0 BUS, 1 SHUNT. -/
  | setCt (sel : BitVec 8) (us : BitVec 16)
  /-- SET_CONT, opcode 0x03, R104. -/
  | setCont (b : Bool)
  /-- SET_MEASV, opcode 0x04, R105. -/
  | setMeasv (b : Bool)
  /-- SET_MEASI, opcode 0x05, R106. -/
  | setMeasi (b : Bool)
  /-- SET_MODE, opcode 0x06, R107: continuous, measureVoltage, measureCurrent. -/
  | setMode (c v i : Bool)
  /-- GET_CFG, opcode 0x07, R108. -/
  | getCfg
  /-- SET_ALERT_SRC, opcode 0x10, R131: six slots, `a` the first list element. -/
  | setAlertSrc (a b c d e f : BitVec 4)
  /-- GET_ALERT, opcode 0x11, R132. -/
  | getAlert
  /-- SET_APOL, opcode 0x12, R133. -/
  | setApol (b : Bool)
  /-- SET_LATCH, opcode 0x13, R134. -/
  | setLatch (b : Bool)
  /-- READ_FLAG, opcode 0x14, R135: `sel` 0 AFF, 1 CVRF, 2 OVF. -/
  | readFlag (sel : BitVec 8)
  /-- RAW2V, opcode 0x20, R161. -/
  | raw2v (raw : BitVec 16)
  /-- RAW2I, opcode 0x21, R162. -/
  | raw2i (raw : BitVec 16)
  /-- RAW2P, opcode 0x22, R163. -/
  | raw2p (raw : BitVec 16)
  /-- V2RAW, opcode 0x23, R166: volts on OPQ. -/
  | v2raw
  /-- I2RAW, opcode 0x24, R167: amperes on OPQ. -/
  | i2raw
  /-- P2RAW, opcode 0x25, R168: watts on OPQ. -/
  | p2raw
  /-- READ_V, opcode 0x26, R170. -/
  | readV
  /-- READ_I, opcode 0x27, R171. -/
  | readI
  /-- READ_P, opcode 0x28, R172. -/
  | readP
  /-- SET_ALERT_LIMIT, opcode 0x29, R174: the limit on OPQ. -/
  | setAlertLimit
  /-- GET_ALERT_LIMIT, opcode 0x2A, R175. -/
  | getAlertLimit
  /-- AUTO_TMO, opcode 0x30, R192. -/
  | autoTmo
  /-- WAIT_EDGE, opcode 0x31, R197: `a` automatic timeout, else OPT. -/
  | waitEdge (a : Bool)
  /-- WAIT_FLAG, opcode 0x32, R200. -/
  | waitFlag (a : Bool)
  /-- WAIT_PEAK, opcode 0x33, R205: the noise threshold on OPQ. -/
  | waitPeak (a : Bool)
  /-- RESET, opcode 0x40, R230. -/
  | reset
  /-- RD_REG, opcode 0x41, R231: `sel` is the register address. -/
  | rdReg (sel : BitVec 8)
  /-- CHECK_ID, opcode 0x42, R232. -/
  | checkId
deriving DecidableEq, Repr

end Sys2Proof
end

