-- ==== Sys2Proof/Decode.lean ====
section
/-! DEFINITION. The command word: decoding (total, R96) and encoding (R90, R92). -/

namespace Sys2Proof

/-- Why a command word is illegal (R95(a)). -/
inductive DecodeReject where
  /-- The opcode (bits 31:24) is not one of R92's. -/
  | unassignedOpcode (opcode : BitVec 8)
  /-- A must-be-zero bit of the opcode's format is set. -/
  | mustBeZero (opcode : BitVec 8)
deriving DecidableEq, Repr

/-- R90: bits 31:24. -/
def opcodeField (w : CommandWord) : BitVec 8 := w.extractLsb' 24 8

/-- R90: `imm16 = word[15:0]`. -/
def immField (w : CommandWord) : BitVec 16 := w.extractLsb' 0 16

/-- R90: `sel = word[23:16]`. -/
def selField (w : CommandWord) : BitVec 8 := w.extractLsb' 16 8

/-- R90: the four-bit slot of format L that starts at bit `lo`. -/
def slotField (w : CommandWord) (lo : Nat) : BitVec 4 := w.extractLsb' lo 4

/-- An operand reader's answer: the operation, if the must-be-zero bits of its format are zero. -/
def ifZero (zero : Bool) (w : CommandWord) (i : Instr) : Except DecodeReject Instr :=
  if zero then .ok i else .error (.mustBeZero (opcodeField w))

/-- Format N: bits 23:0 must be zero. -/
def decodeN (w : CommandWord) (i : Instr) : Except DecodeReject Instr :=
  ifZero (w.extractLsb' 0 24 == 0) w i

/-- Format I: bits 23:16 must be zero. -/
def decodeI (w : CommandWord) (mk : BitVec 16 → Instr) : Except DecodeReject Instr :=
  ifZero (w.extractLsb' 16 8 == 0) w (mk (immField w))

/-- Format SI: no must-be-zero bits. -/
def decodeSI (w : CommandWord) (mk : BitVec 8 → BitVec 16 → Instr) : Except DecodeReject Instr :=
  .ok (mk (selField w) (immField w))

/-- Format S: bits 15:0 must be zero. -/
def decodeS (w : CommandWord) (mk : BitVec 8 → Instr) : Except DecodeReject Instr :=
  ifZero (w.extractLsb' 0 16 == 0) w (mk (selField w))

/-- Formats B and A: bits 23:1 must be zero, bit 0 is the operand. -/
def decodeB (w : CommandWord) (mk : Bool → Instr) : Except DecodeReject Instr :=
  ifZero (w.extractLsb' 1 23 == 0) w (mk (w.getLsbD 0))

/-- Format M: bits 23:3 must be zero; `c = word[2]`, `v = word[1]`, `i = word[0]`. -/
def decodeM (w : CommandWord) (mk : Bool → Bool → Bool → Instr) : Except DecodeReject Instr :=
  ifZero (w.extractLsb' 3 21 == 0) w (mk (w.getLsbD 2) (w.getLsbD 1) (w.getLsbD 0))

/-- Format L: six four-bit slots, `a = word[3:0]` first. -/
def decodeL (w : CommandWord) (mk : BitVec 4 → BitVec 4 → BitVec 4 → BitVec 4 → BitVec 4 → BitVec 4 → Instr) :
    Except DecodeReject Instr :=
  .ok (mk (slotField w 0) (slotField w 4) (slotField w 8) (slotField w 12) (slotField w 16) (slotField w 20))

/-- R89, R92, R96: every 32-bit word is one operation with definite operands or an illegal command. -/
def decode (w : CommandWord) : Except DecodeReject Instr :=
  if opcodeField w = 0x01 then decodeI w .setAvg
  else if opcodeField w = 0x02 then decodeSI w .setCt
  else if opcodeField w = 0x03 then decodeB w .setCont
  else if opcodeField w = 0x04 then decodeB w .setMeasv
  else if opcodeField w = 0x05 then decodeB w .setMeasi
  else if opcodeField w = 0x06 then decodeM w .setMode
  else if opcodeField w = 0x07 then decodeN w .getCfg
  else if opcodeField w = 0x10 then decodeL w .setAlertSrc
  else if opcodeField w = 0x11 then decodeN w .getAlert
  else if opcodeField w = 0x12 then decodeB w .setApol
  else if opcodeField w = 0x13 then decodeB w .setLatch
  else if opcodeField w = 0x14 then decodeS w .readFlag
  else if opcodeField w = 0x20 then decodeI w .raw2v
  else if opcodeField w = 0x21 then decodeI w .raw2i
  else if opcodeField w = 0x22 then decodeI w .raw2p
  else if opcodeField w = 0x23 then decodeN w .v2raw
  else if opcodeField w = 0x24 then decodeN w .i2raw
  else if opcodeField w = 0x25 then decodeN w .p2raw
  else if opcodeField w = 0x26 then decodeN w .readV
  else if opcodeField w = 0x27 then decodeN w .readI
  else if opcodeField w = 0x28 then decodeN w .readP
  else if opcodeField w = 0x29 then decodeN w .setAlertLimit
  else if opcodeField w = 0x2A then decodeN w .getAlertLimit
  else if opcodeField w = 0x30 then decodeN w .autoTmo
  else if opcodeField w = 0x31 then decodeB w .waitEdge
  else if opcodeField w = 0x32 then decodeB w .waitFlag
  else if opcodeField w = 0x33 then decodeB w .waitPeak
  else if opcodeField w = 0x40 then decodeN w .reset
  else if opcodeField w = 0x41 then decodeS w .rdReg
  else if opcodeField w = 0x42 then decodeN w .checkId
  else .error (.unassignedOpcode (opcodeField w))

/-- The instruction the decoder reads from a command whose bits are `w`, bits from `nbits` up taken as 0. One command is
one 32-bit word (R97), so no byte order enters (R66). -/
def decodeTableWord (nbits w : Nat) : Option Instr :=
  match decode (BitVec.ofNat 32 (w % 2 ^ nbits)) with
  | .ok i => some i
  | .error _ => none

/-- R90, format N. -/
def encodeN (opcode : BitVec 8) : CommandWord := opcode ++ (0 : BitVec 24)

/-- R90, format I. -/
def encodeI (opcode : BitVec 8) (imm : BitVec 16) : CommandWord := opcode ++ (0 : BitVec 8) ++ imm

/-- R90, format SI. -/
def encodeSI (opcode sel : BitVec 8) (imm : BitVec 16) : CommandWord := opcode ++ sel ++ imm

/-- R90, format S. -/
def encodeS (opcode sel : BitVec 8) : CommandWord := opcode ++ sel ++ (0 : BitVec 16)

/-- R90, formats B and A. -/
def encodeB (opcode : BitVec 8) (b : Bool) : CommandWord := opcode ++ (0 : BitVec 23) ++ BitVec.ofBool b

/-- R90, format M. -/
def encodeM (opcode : BitVec 8) (c v i : Bool) : CommandWord :=
  opcode ++ (0 : BitVec 21) ++ BitVec.ofBool c ++ BitVec.ofBool v ++ BitVec.ofBool i

/-- R90, format L: the last list element stands highest. -/
def encodeL (opcode : BitVec 8) (a b c d e f : BitVec 4) : CommandWord := opcode ++ f ++ e ++ d ++ c ++ b ++ a

/-- R92: the opcode of an operation. -/
def Instr.opcode : Instr → BitVec 8
  | .setAvg _ => 0x01
  | .setCt _ _ => 0x02
  | .setCont _ => 0x03
  | .setMeasv _ => 0x04
  | .setMeasi _ => 0x05
  | .setMode _ _ _ => 0x06
  | .getCfg => 0x07
  | .setAlertSrc _ _ _ _ _ _ => 0x10
  | .getAlert => 0x11
  | .setApol _ => 0x12
  | .setLatch _ => 0x13
  | .readFlag _ => 0x14
  | .raw2v _ => 0x20
  | .raw2i _ => 0x21
  | .raw2p _ => 0x22
  | .v2raw => 0x23
  | .i2raw => 0x24
  | .p2raw => 0x25
  | .readV => 0x26
  | .readI => 0x27
  | .readP => 0x28
  | .setAlertLimit => 0x29
  | .getAlertLimit => 0x2A
  | .autoTmo => 0x30
  | .waitEdge _ => 0x31
  | .waitFlag _ => 0x32
  | .waitPeak _ => 0x33
  | .reset => 0x40
  | .rdReg _ => 0x41
  | .checkId => 0x42

/-- R90, R92: the command word of an operation. -/
def encode (i : Instr) : CommandWord :=
  match i with
  | .setAvg count => encodeI i.opcode count
  | .setCt sel us => encodeSI i.opcode sel us
  | .setCont b => encodeB i.opcode b
  | .setMeasv b => encodeB i.opcode b
  | .setMeasi b => encodeB i.opcode b
  | .setMode c v m => encodeM i.opcode c v m
  | .getCfg => encodeN i.opcode
  | .setAlertSrc a b c d e f => encodeL i.opcode a b c d e f
  | .getAlert => encodeN i.opcode
  | .setApol b => encodeB i.opcode b
  | .setLatch b => encodeB i.opcode b
  | .readFlag sel => encodeS i.opcode sel
  | .raw2v raw => encodeI i.opcode raw
  | .raw2i raw => encodeI i.opcode raw
  | .raw2p raw => encodeI i.opcode raw
  | .v2raw => encodeN i.opcode
  | .i2raw => encodeN i.opcode
  | .p2raw => encodeN i.opcode
  | .readV => encodeN i.opcode
  | .readI => encodeN i.opcode
  | .readP => encodeN i.opcode
  | .setAlertLimit => encodeN i.opcode
  | .getAlertLimit => encodeN i.opcode
  | .autoTmo => encodeN i.opcode
  | .waitEdge a => encodeB i.opcode a
  | .waitFlag a => encodeB i.opcode a
  | .waitPeak a => encodeB i.opcode a
  | .reset => encodeN i.opcode
  | .rdReg sel => encodeS i.opcode sel
  | .checkId => encodeN i.opcode

end Sys2Proof
end

