-- ==== Sys2Proof/Config.lean ====
section
/-! DEFINITION. What the source fixes (R10), what a session fixes (R9), and the environment's free choices (R32, R33,
R61, R63, R64, R72). The session's open parameters and the draws past the end of a script are opaque constants: no
proof can see their values. -/

namespace Sys2Proof

/-- R10: the averaging counts, index 0 first. -/
def Config.avgTable : List Nat := [1, 4, 16, 64, 128, 256, 512, 1024]

/-- R10: the conversion times in microseconds, index 0 first. -/
def Config.ctTable : List Nat := [140, 204, 332, 588, 1100, 2116, 4156, 8244]

/-- R9: PEAK_DEFAULT_TMO_US, five periods of the 50 Hz mains, in microseconds. -/
def Config.peakDefaultTmo : Nat := 100000

/-- R9, R12: which way round_int goes at an exact half (ROUND_TIE, open: statements hold for both). -/
inductive RoundTie where
  | halfEven
  | halfAway
deriving DecidableEq, Repr, Inhabited

/-- R9: the parameters of one session. The constraints are R9's own, so an illegal session cannot be built; the default
values below are only what Lean needs to know that the type is inhabited (log 5). -/
structure Session where
  /-- I2C_ADDR. -/
  i2cAddr : BitVec 7 := 0x40
  /-- I2C_CHANNEL: an opaque selector, nothing depends on it. -/
  i2cChannel : Nat := 0
  /-- ALERT_PIN_PRESENT. -/
  alertPin : Bool := true
  /-- R_SERIES in ohms. -/
  rSeries : Rat := 0
  /-- R_BUS in ohms. -/
  rBus : Rat := 1
  /-- V_DIODE in volts, any sign. -/
  vDiode : Rat := 0
  /-- ROUND_TIE. -/
  roundTie : RoundTie := .halfEven
  /-- POLL_INTERVAL_US. -/
  pollInterval : Nat := 1
  rSeries_nonneg : 0 ≤ rSeries := by decide
  rBus_pos : 0 < rBus := by decide
  pollInterval_pos : 1 ≤ pollInterval := by decide
deriving DecidableEq, Repr, Inhabited

/-- R196: one event of the environment. `time d` moves the time base on by `d` microseconds, so `now` never decreases
(R33). -/
inductive EnvEvent where
  /-- `Line(l)`: the alert line takes level `l`. -/
  | line (l : Bool)
  /-- `Time(t)` with `t = now + d`. -/
  | time (d : Nat)
deriving DecidableEq, Repr

/-- The environment's choices over one stretch of the block's run: one bus transaction, one armed wait, or one gap
between two readings of the time base. A field a stretch does not use is not looked at (log 2). -/
structure Draw where
  /-- What the line and the time base do in this stretch, in order (R32, R33, R298). -/
  events : List EnvEvent := []
  /-- The transaction fails (R72, U13). -/
  fails : Bool := false
  /-- A failed transaction had its effect on the device all the same (R72, U11, U12). -/
  took : Bool := false
  /-- What the device does to CVRF by itself before the access (R63, U8, U22). -/
  cvrf : Option Bool := none
  /-- What the device does to AFF by itself before the access (R63, U8). -/
  aff : Option Bool := none
  /-- What the device does to OVF by itself before the access (R63, U8). -/
  ovf : Option Bool := none
  /-- AFF after a read of Mask/Enable in transparent mode (R61, U9). -/
  affAfter : Bool := false
  /-- The content of the Current register at this access (R38, R64, U7). -/
  current : Word := 0
  /-- The content of the Bus Voltage register at this access (R38, R64, U7). -/
  busVoltage : Word := 0
  /-- The content of the Power register at this access (R38, R64, U7). -/
  power : Word := 0
  /-- In an armed wait: an edge at the very instant of the deadline counts (R196, R252, U15). -/
  tie : Bool := false
deriving DecidableEq, Repr, Inhabited

/-- The session parameters at `State.reset`: open (R9). -/
opaque Config.session : Session

/-- The environment's choices once a state's script `env` is used up: free, one per index (R15: a draw is "a value
chosen by the environment under no law"). -/
opaque Config.freeDraw : Nat → Draw

end Sys2Proof
end

