-- ==== Sys2Proof/Machine/State.lean ====
section
/-! DEFINITION. The state of the machine as plain data: the block's registers (R20(a)), the device's registers (R20(b)),
the inputs (R20(c)), the ports (R91), the session's parameters (R9), and the model's own script and log fields. -/

namespace Sys2Proof.Machine

/-- No fault: nothing the spec describes stops the machine. Every error ends its operation with a response, which is a
next state (R247), and a wait always ends (R196, U24). An empty type is safe: no step can answer with one. -/
inductive Fault
deriving DecidableEq, Repr

/-- Why a step refuses to answer. -/
inductive Refusal where
  /-- Raised by `step` when an operation is in progress (`fsm` is not Idle): a second operation has no meaning (R255,
  U20). Safe: the model says nothing of such a system. -/
  | busy
  /-- Raised by an arm of `exec` whose instruction has no meaning yet; no arm does so. Safe. -/
  | notModelled (mnemonic : String)
deriving DecidableEq, Repr

/-- R21 to R25: the shadow registers. -/
structure Shadow where
  /-- R21: the averaging count, a member of AVG_TABLE. -/
  avg : Nat
  /-- R22: the bus-voltage conversion time in microseconds, a member of CT_TABLE. -/
  vbusct : Nat
  /-- R22: the shunt-current conversion time in microseconds, a member of CT_TABLE. -/
  ishct : Nat
  /-- R23: continuous mode. -/
  cont : Bool
  /-- R23: the bus voltage is measured. -/
  mv : Bool
  /-- R23: the shunt current is measured. -/
  mc : Bool
  /-- R24: bit `k` stands for Mask/Enable bit `10 + k`. -/
  amask : BitVec 6
  /-- R25: 0 active-low, 1 active-high. -/
  apol : Bool
  /-- R25: 0 transparent, 1 latched. -/
  latch : Bool
deriving DecidableEq, Repr

/-- R28: the state of the wait primitive. -/
inductive Fsm where
  | idle
  | armed
  | signaled
  | timedOut
deriving DecidableEq, Repr

/-- R29: the registers of an armed wait. What they hold with no wait armed is the model's choice (log 7). -/
structure WaitRegs where
  /-- `now` when Armed was entered. -/
  tArm : Nat
  /-- The timeout of this wait in microseconds. -/
  tmo : Nat
  /-- The last sampled level of the alert line (WAIT_EDGE only). -/
  prev : Bool
  /-- A falling edge has been seen since arming (WAIT_EDGE only). -/
  edge : Bool
deriving DecidableEq, Repr

/-- R30: `p.saved`, the caller's configuration. -/
structure Saved where
  avg : Nat
  vbusct : Nat
  ishct : Nat
  cont : Bool
  mv : Bool
  mc : Bool
  amask : BitVec 6
deriving DecidableEq, Repr

/-- R30: the registers of one WAIT_PEAK. What they hold outside it is the model's choice (log 7). -/
structure PeakRegs where
  saved : Saved
  /-- At most three voltage samples, oldest first. -/
  win : List Rat
  /-- `now` when the operation began. -/
  tStart : Nat
deriving DecidableEq, Repr

/-- R34: the eight device registers by name. -/
inductive DevReg where
  /-- 0x00. -/
  | config
  /-- 0x01. -/
  | current
  /-- 0x02. -/
  | busVoltage
  /-- 0x03. -/
  | power
  /-- 0x06. -/
  | mask
  /-- 0x07. -/
  | limit
  /-- 0xFE. -/
  | manufacturerId
  /-- 0xFF. -/
  | dieId
deriving DecidableEq, Repr

/-- R34 to R39, R41(d): what the device holds. -/
structure Device where
  /-- 0x00 (R35). -/
  config : Word
  /-- 0x01 (R38). -/
  current : Word
  /-- 0x02 (R38). -/
  busVoltage : Word
  /-- 0x03 (R38). -/
  power : Word
  /-- 0x06 (R36), the flags AFF, CVRF and OVF among its bits. -/
  mask : Word
  /-- 0x07 (R37). -/
  limit : Word
  /-- 0xFE (R39). -/
  manufacturerId : Word
  /-- 0xFF (R39). -/
  dieId : Word
  /-- R41(d): the I2C register pointer inside the device; no rule depends on it. Its value at reset, and after a device reset
  and a failed transaction, is the model's choice (log 8). -/
  pointer : Byte
deriving DecidableEq, Repr

/-- One bus transaction as the bus trace of `95_test_vectors.md` writes it. -/
inductive Txn where
  /-- A successful RegRead and the value it returned. -/
  | read (addr : Byte) (value : Word)
  /-- A successful RegWrite. -/
  | write (addr : Byte) (value : Word)
  /-- A failed RegRead. -/
  | readFailed (addr : Byte)
  /-- A failed RegWrite and the value it was to store. -/
  | writeFailed (addr : Byte) (value : Word)
deriving DecidableEq, Repr

/-- R240: the five error classes with the information each carries; ValidationError has two forms of it. -/
inductive OpError where
  /-- ValidationError, code 1: the offending operand value. -/
  | validation (operand : Nat)
  /-- ValidationError, code 1, for an illegal command: the command word (R95(a), log 20). -/
  | illegalCommand (word : CommandWord)
  /-- PreconditionError, code 2. -/
  | precondition
  /-- RangeError, code 3: the rounded count. -/
  | range (n : Int)
  /-- TransportError, code 4: the register address and whether the transaction was a write. -/
  | transport (addr : Byte) (isWrite : Bool)
  /-- TimeoutError, code 5. -/
  | timeout
deriving DecidableEq, Repr

/-- R92, column "result". -/
inductive Result where
  | none
  /-- GET_CFG. -/
  | config (avg vbusct ishct : Nat) (cont mv mc : Bool)
  /-- GET_ALERT. -/
  | names (sources : List String)
  /-- READ_FLAG, WAIT_EDGE, WAIT_FLAG. -/
  | bit (b : Bool)
  /-- RAW2V, RAW2I, RAW2P, READ_V, READ_I, READ_P, GET_ALERT_LIMIT. -/
  | quantity (q : Rat)
  /-- V2RAW, I2RAW, P2RAW: the count and the value it stands for. -/
  | count (n : Word) (q : Rat)
  /-- AUTO_TMO. -/
  | micros (n : Nat)
  /-- WAIT_PEAK. -/
  | success
  /-- RD_REG. -/
  | word (w : Word)
  /-- CHECK_ID: the ok bit and the revision. -/
  | ident (ok : Bool) (revision : BitVec 4)
deriving DecidableEq, Repr

/-- R91: the response port. -/
inductive Response where
  /-- No operation has been answered in this session. -/
  | none
  /-- `status = 0` and a result. -/
  | done (r : Result)
  /-- An error code and its information, and no result. -/
  | failed (e : OpError)
deriving DecidableEq, Repr

/-- What the host side does next (log 3): issue an operation, or one of the two events of R270 and R271(b). -/
inductive HostEvent where
  /-- R89, R91: a command word with the contents of the side ports OPT and OPQ. -/
  | command (word : CommandWord) (opt : Nat) (opq : Rat)
  /-- R270: a session starts. Its parameters are those it had: no reset changes them (R273). -/
  | blockReset
  /-- R271(b): the device is powered on; the block cannot see it. -/
  | devicePowerOn
deriving DecidableEq, Repr

/-- The whole machine. -/
structure State where
  /-- R9: the session's parameters. No operation and no reset changes them (R9, R20, R273): a session with other parameters,
  at another I2C address say (R51), is another machine, with a State of its own (log 5). -/
  session : Session
  /-- R21 to R25. -/
  sh : Shadow
  /-- R28. -/
  fsm : Fsm
  /-- R29. -/
  w : WaitRegs
  /-- R30. -/
  p : PeakRegs
  /-- R34 to R39. -/
  dev : Device
  /-- R32: the level of the alert line, an input. -/
  alertN : Bool
  /-- R33: the time base in microseconds, an input. -/
  now : Nat
  /-- R91: the side port OPT. -/
  opt : Nat
  /-- R91: the side port OPQ. -/
  opq : Rat
  /-- R91: the response port. The spec gives the response to an operation; that the port shows it until the next answer is the
  model's DESIGN CHOICE (log 9). No meaning reads it (R249). -/
  resp : Response
  /-- The model's own: the bus transactions since the operation was accepted, oldest first (log 10). -/
  trace : List Txn
  /-- The model's own: what the host side will do, next event first (log 3). -/
  host : List HostEvent
  /-- The model's own: the environment's scripted draws, next first (log 2). -/
  env : List Draw
  /-- The model's own: how many opaque draws have been taken (log 2). -/
  tick : Nat
deriving DecidableEq, Repr

/-- R42: the shadow after block reset. -/
def Shadow.reset : Shadow where
  avg := 1
  vbusct := 1100
  ishct := 1100
  cont := true
  mv := true
  mc := true
  amask := 0
  apol := false
  latch := false

/-- R42, R271: the device of `State.reset`, fresh from power-on (log 4). The measurement registers hold a draw (replaced at
the first access, log 8); the revision, which R39 leaves open, and the pointer are the model's choice (log 8). What a later
device reset does is `Device.resetRegs`. -/
def Device.reset : Device where
  config := 0x6127
  current := 0
  busVoltage := 0
  power := 0
  mask := 0x0000
  limit := 0x0000
  manufacturerId := 0x5449
  dieId := 0x2270
  pointer := 0

/-- R42: the wait registers are unspecified after block reset; DESIGN CHOICE (log 7). -/
def WaitRegs.reset : WaitRegs where
  tArm := 0
  tmo := 0
  prev := false
  edge := false

/-- R42: the peak registers are unspecified after block reset; DESIGN CHOICE (log 7). -/
def PeakRegs.reset : PeakRegs where
  saved := { avg := 1, vbusct := 1100, ishct := 1100, cont := true, mv := true, mc := true, amask := 0 }
  win := []
  tStart := 0

/-- R270, R42: right after block reset, with a device fresh from power-on (log 4) and open session parameters (log 5). -/
def State.reset : State where
  session := Config.session
  sh := Shadow.reset
  fsm := .idle
  w := WaitRegs.reset
  p := PeakRegs.reset
  dev := Device.reset
  alertN := true
  now := 0
  opt := 0
  opq := 0
  resp := .none
  trace := []
  host := []
  env := []
  tick := 0

end Sys2Proof.Machine
end

