-- ==== Sys2Proof/Machine/Flags.lean ====
section
/-! DEFINITION. Bit-fields of the device's registers and the three status flags of Mask/Enable (R36, R40, R86): what the
device does to them by itself (R63) and what a read does (R60 to R62). -/

namespace Sys2Proof.Machine

/-- R35: the Configuration bits 14:12, always 0b110, with bit 15 reading 0. -/
def configFixed : Word := 0x6000

/-- R36: the reserved bits 9:5 of Mask/Enable. -/
def maskReserved : Word := 0x03E0

/-- R86. -/
def affMask : Word := 0x0010

/-- R86. -/
def cvrfMask : Word := 0x0008

/-- R86. -/
def ovfMask : Word := 0x0004

/-- R36: AFF is bit 4. -/
def affOf (m : Word) : Bool := m.getLsbD 4

/-- R36: CVRF is bit 3. -/
def cvrfOf (m : Word) : Bool := m.getLsbD 3

/-- R36: OVF is bit 2. -/
def ovfOf (m : Word) : Bool := m.getLsbD 2

/-- R36: LEN is bit 0, 1 latched. -/
def lenOf (m : Word) : Bool := m.getLsbD 0

/-- The word with the bits of `mask` all set to `b`. -/
def setBits (m mask : Word) (b : Bool) : Word := (m &&& ~~~mask) ||| (if b then mask else 0)

/-- R63: the device sets or clears one flag by itself, or leaves it. -/
def ownChange (m mask : Word) (c : Option Bool) : Word :=
  match c with
  | some b => setBits m mask b
  | none => m

/-- R63, R61, R41(a): what the device does to AFF by itself. In latch mode a raised AFF is held until Mask/Enable is read
(log 11). -/
def ownAff (m : Word) (c : Option Bool) : Word :=
  if lenOf m && affOf m then m else ownChange m affMask c

/-- R63: the Mask/Enable word after the device's own changes of its flags. -/
def ownFlags (m : Word) (d : Draw) : Word :=
  ownChange (ownChange (ownAff m d.aff) cvrfMask d.cvrf) ovfMask d.ovf

/-- R60, R61, R62: the Mask/Enable word after a read. CVRF is cleared; AFF is cleared in latch mode and a draw in
transparent mode; all other bits stay. -/
def clearOnRead (m : Word) (d : Draw) : Word :=
  setBits (setBits m cvrfMask false) affMask (!lenOf m && d.affAfter)

/-- R58: what a write of `v` stores: bits 15:10, 1 and 0. The flags stay, the reserved bits read 0. -/
def storeMask (m v : Word) : Word := (v &&& 0xFC03) ||| (m &&& 0x001C)

/-- R57: what a write of `v` with `v[15] = 0` stores. -/
def storeConfig (v : Word) : Word := configFixed ||| (v &&& 0x0FFF)

/-- R83, R86, R56: bits of `old` outside `mask` with `v` OR-ed in. -/
def mergeBits (old mask v : Word) : Word := (old &&& ~~~mask) ||| v

end Sys2Proof.Machine
end

