-- ==== Sys2Proof/Machine/Ops.lean ====
section
/-! DEFINITION. The operations every meaning is made of: taking the environment's draws (R13, R33, R63), the access
primitives RegRead, RegWrite and RMW (R54 to R56, R72), raising an error (R247) and answering the host (R91), and the
two resets (R270, R271). -/

namespace Sys2Proof.Machine

/-! ### Updates of the state -/

def State.withShadow (s : State) (x : Shadow) : State := { s with sh := x }
def State.withFsm (s : State) (x : Fsm) : State := { s with fsm := x }
def State.withWait (s : State) (x : WaitRegs) : State := { s with w := x }
def State.withPeak (s : State) (x : PeakRegs) : State := { s with p := x }
def State.withDevice (s : State) (x : Device) : State := { s with dev := x }
def State.withAlert (s : State) (x : Bool) : State := { s with alertN := x }
def State.withNow (s : State) (x : Nat) : State := { s with now := x }
def State.withResponse (s : State) (x : Response) : State := { s with resp := x }
def State.withEnv (s : State) (x : List Draw) (n : Nat) : State := { s with env := x, tick := n }

/-- The transaction `t` has been performed: it stands last in the bus trace (log 10). -/
def State.logged (s : State) (t : Txn) : State := { s with trace := s.trace ++ [t] }

/-! ### The environment -/

/-- The environment's choices for the next stretch: the script's, or, past its end, an opaque draw in which at least one
microsecond passes (log 2). -/
def State.nextDraw (s : State) : Draw :=
  match s.env with
  | d :: _ => d
  | [] => { Config.freeDraw s.tick with events := .time 1 :: (Config.freeDraw s.tick).events }

/-- The state with that draw taken: from the script, or, past its end, the next opaque one. -/
def State.drop (s : State) : State := s.withEnv s.env.tail (if s.env.isEmpty then s.tick + 1 else s.tick)

/-- R32: the level of the alert line after environment events, from the level before them. -/
def lineAfter : Bool → List EnvEvent → Bool
  | b, [] => b
  | _, .line l :: r => lineAfter l r
  | b, .time _ :: r => lineAfter b r

/-- R33: the microseconds that pass over environment events. -/
def elapsed : List EnvEvent → Nat
  | [] => 0
  | .line _ :: r => elapsed r
  | .time d :: r => d + elapsed r

/-- R32, R33: environment events while the block does not watch the line. -/
def State.events (es : List EnvEvent) (s : State) : State :=
  (s.withAlert (lineAfter s.alertN es)).withNow (s.now + elapsed es)

/-- R33: a gap before the block reads the time base, in which `now` may advance by any amount and the line may move. -/
def State.pause (s : State) : State := State.events s.nextDraw.events s.drop

/-! ### The device (R57 to R64) -/

/-- R52: the address of a register. -/
def DevReg.addr : DevReg → Byte
  | .config => 0x00
  | .current => 0x01
  | .busVoltage => 0x02
  | .power => 0x03
  | .mask => 0x06
  | .limit => 0x07
  | .manufacturerId => 0xFE
  | .dieId => 0xFF

/-- R34: the content of a register. -/
def Device.get (d : Device) : DevReg → Word
  | .config => d.config
  | .current => d.current
  | .busVoltage => d.busVoltage
  | .power => d.power
  | .mask => d.mask
  | .limit => d.limit
  | .manufacturerId => d.manufacturerId
  | .dieId => d.dieId

/-- R63, R64: what the device does by itself before an access: its flags and its measurement registers, and nothing of
what the block controls. -/
def Device.evolve (d : Device) (x : Draw) : Device :=
  { d with mask := ownFlags d.mask x, current := x.current, busVoltage := x.busVoltage, power := x.power }

/-- R41(d), R53: every access sends the register address. -/
def Device.addressed (d : Device) (r : DevReg) : Device := { d with pointer := r.addr }

/-- R60 to R62: the device after a read of `r`; only a read of Mask/Enable has a side effect on a register. -/
def Device.afterRead (d : Device) (r : DevReg) (x : Draw) : Device :=
  match r with
  | .mask => { d.addressed r with mask := clearOnRead d.mask x }
  | _ => d.addressed r

/-- R42, R57, R271: a device reset. The identity registers are constants; the measurement registers hold a draw, which the
next access takes (log 8). The I2C pointer (R41(d)) stays as it was: the spec gives it no value after a device reset,
neither by a RESET write nor by a power-on, and keeping it is the model's DESIGN CHOICE (log 8). -/
def Device.resetRegs (d : Device) : Device :=
  { d with config := 0x6127, mask := 0x0000, limit := 0x0000 }

/-- R57 to R59: the device after a write of `v` to `r`. The other registers are read-only and never written (R55). -/
def Device.afterWrite (d : Device) (r : DevReg) (v : Word) : Device :=
  match r with
  | .config =>
    if v.getLsbD 15 then (d.addressed r).resetRegs else { d.addressed r with config := storeConfig v }
  | .mask => { d.addressed r with mask := storeMask d.mask v }
  | .limit => { d.addressed r with limit := v }
  | _ => d.addressed r

/-- The state in which the next transaction meets the device: time, the line and the device have moved as the draw says
(R63, R298). -/
def State.atAccess (s : State) : State :=
  (State.events s.nextDraw.events s.drop).withDevice (s.dev.evolve s.nextDraw)

/-! ### Results of a part of an operation -/

/-- A part of an operation ends with a value, or raises an error (R13, R247); either way in a state. -/
inductive Res (α : Type) where
  | ok (a : α) (s : State)
  | err (e : OpError) (s : State)

/-- R247: nothing after an error runs. -/
def Res.bind {α β : Type} (r : Res α) (f : α → State → Res β) : Res β :=
  match r with
  | .ok a s => f a s
  | .err e s => .err e s

/-- The state a part ends in. -/
def Res.state {α : Type} : Res α → State
  | .ok _ s => s
  | .err _ s => s

/-- A pure computation's answer as a part of an operation. -/
def Res.ofExcept {α : Type} (x : Except OpError α) (s : State) : Res α :=
  match x with
  | .ok a => .ok a s
  | .error e => .err e s

/-- R247, R248, R199: raising an error. The response carries it; nothing is saved; `fsm` is Idle. There is no operation
that returns from an error (R249): the next step takes the host's next event. -/
def State.raise (s : State) (e : OpError) : State := (s.withFsm .idle).withResponse (.failed e)

/-- R240: the code of an error class. -/
def OpError.code : OpError → Nat
  | .validation _ => 1
  | .illegalCommand _ => 1
  | .precondition => 2
  | .range _ => 3
  | .transport _ _ => 4
  | .timeout => 5

/-- R91, R240: `status` on the response port: 0 for normal completion, else the error's code; none before an operation has
been answered. -/
def Response.status : Response → Option Nat
  | .none => Option.none
  | .done _ => some 0
  | .failed e => some e.code

/-- R91: answering the host with a result. -/
def State.answer (s : State) (r : Result) : State := s.withResponse (.done r)

/-- The state in which the operation has answered. -/
def Res.answered : Res Result → State
  | .ok r s => s.answer r
  | .err e s => s.raise e

/-- R247: an operation always answers the host; control is then back with the host. -/
def complete (r : Res Result) : Host.Outcome State Fault Refusal := .next r.answered

/-- An operation that ends with no result. -/
def Res.unit (r : Res Unit) : Res Result := r.bind fun _ s => .ok .none s

/-! ### The access primitives (R54 to R56, R72) -/

/-- R54, R72: one read transaction. A failed one may or may not have had its effect (log 12). That it moves the device's
I2C pointer (R41(d)) only with that effect, never by its address byte alone, is the model's DESIGN CHOICE: R72 speaks of
register contents only (log 8). -/
def regRead (r : DevReg) (s : State) : Res Word :=
  if s.nextDraw.fails then
    .err (.transport r.addr false)
      ((s.atAccess.withDevice
        (if s.nextDraw.took then s.atAccess.dev.afterRead r s.nextDraw else s.atAccess.dev)).logged (.readFailed r.addr))
  else
    .ok (s.atAccess.dev.get r)
      ((s.atAccess.withDevice (s.atAccess.dev.afterRead r s.nextDraw)).logged (.read r.addr (s.atAccess.dev.get r)))

/-- R55, R72: one write transaction. A failed one may or may not have had its effect (log 12), and moves the device's I2C
pointer only with it: the model's DESIGN CHOICE, as for `regRead` (log 8). -/
def regWrite (r : DevReg) (v : Word) (s : State) : Res Unit :=
  if s.nextDraw.fails then
    .err (.transport r.addr true)
      ((s.atAccess.withDevice
        (if s.nextDraw.took then s.atAccess.dev.afterWrite r v else s.atAccess.dev)).logged (.writeFailed r.addr v))
  else
    .ok () ((s.atAccess.withDevice (s.atAccess.dev.afterWrite r v)).logged (.write r.addr v))

/-- R56: read the live register, clear the bits of `mask`, OR in `v`, write back. Always two transactions. -/
def rmw (r : DevReg) (mask v : Word) (s : State) : Res Unit :=
  (regRead r s).bind fun old s => regWrite r (mergeBits old mask v) s

/-! ### The host's events -/

/-- R91, R255: the block takes up the operation with its side ports; the transactions of this operation are none yet.
Time may have passed since the last answer (R298, log 18). -/
def State.accept (s : State) (rest : List HostEvent) (opt : Nat) (opq : Rat) : State :=
  { s with host := rest, opt := opt, opq := opq, trace := [] }.pause

/-- R95(a): an illegal command touches neither the bus nor the block's state. -/
def State.rejectCommand (s : State) (w : CommandWord) : State := s.raise (.illegalCommand w)

/-- R270, R273: block reset. It performs no transaction, does not touch the device and keeps the session's parameters, so
the register space stays that of the device at I2C_ADDR (R51): a session with another address is another block, and
another State (log 5). The wait and peak registers, which it leaves unspecified, take the values they have in
`State.reset` (log 7). That the line, the time base and the script of draws stand still is DESIGN CHOICE (log 9). -/
def State.blockReset (s : State) (rest : List HostEvent) : State :=
  { s with sh := Shadow.reset, fsm := .idle, w := WaitRegs.reset, p := PeakRegs.reset,
           resp := .none, trace := [], host := rest }

/-- R271(b): device power-on; the block's state stays as it was, and so does the device's I2C pointer (log 8). That the
response port still shows the last answer is the model's DESIGN CHOICE (log 9). -/
def State.devicePowerOn (s : State) (rest : List HostEvent) : State :=
  { s with dev := s.dev.resetRegs, host := rest }

/-! ### The wire (R53, R66) -/

/-- One item of an I2C frame, as R53 writes it. -/
inductive WireItem where
  | start
  | repeatedStart
  | stop
  /-- A byte the block sends. -/
  | sent (b : Byte)
  /-- A byte the device sends. -/
  | received (b : Byte)
deriving DecidableEq, Repr

/-- R66: the two data bytes of a value, most significant first. -/
def wireBytes (v : Word) : Byte × Byte := (v.extractLsb' 8 8, v.extractLsb' 0 8)

/-- R53: `{hi8, lo8}`. -/
def fromWire (hi lo : Byte) : Word := hi ++ lo

/-- R53: the device address with the direction bit, 1 for a read. -/
def addressByte (a : BitVec 7) (isRead : Bool) : Byte := a ++ BitVec.ofBool isRead

/-- R53: the frame of a successful transaction; a failed one has no fixed frame (log 21). -/
def Txn.frame (i2cAddr : BitVec 7) : Txn → Option (List WireItem)
  | .write a v =>
    some [.start, .sent (addressByte i2cAddr false), .sent a, .sent (wireBytes v).1, .sent (wireBytes v).2, .stop]
  | .read a v =>
    some [.start, .sent (addressByte i2cAddr false), .sent a, .repeatedStart, .sent (addressByte i2cAddr true),
      .received (wireBytes v).1, .received (wireBytes v).2, .stop]
  | .readFailed _ => none
  | .writeFailed _ _ => none

end Sys2Proof.Machine
end

