-- ==== Sys2Proof/Machine/Operands.lean ====
section
/-! DEFINITION. Operands: table indices and the packed Configuration word (R80 to R84, R88), alert sources and their
collapsing (R85, R130, R132, R173), register addresses (R52), timeouts (R190, R191, R194), and rounding (R12). -/

namespace Sys2Proof.Machine

/-! ### Configuration fields -/

/-- R12: `index_of(T, v)`, used only for members of the table. -/
def indexOf (table : List Nat) (v : Nat) : Nat := table.idxOf v

/-- R88: a table index shifted to the base bit of its field. -/
def fieldValue (index base : Nat) : Word := BitVec.ofNat 16 index <<< base

/-- R104 to R106, R133, R134: one bit as a field value. -/
def bitValue (b : Bool) (base : Nat) : Word := fieldValue b.toNat base

/-- R80: the Configuration word of six settings. -/
def cfgPack (avg vct ict : Nat) (c mv mc : Bool) : Word :=
  configFixed ||| fieldValue (indexOf Config.avgTable avg) 9 ||| fieldValue (indexOf Config.ctTable vct) 6
    ||| fieldValue (indexOf Config.ctTable ict) 3 ||| bitValue c 2 ||| bitValue mv 1 ||| bitValue mc 0

/-- The member of a table at a three-bit index; every index is a table position (R84). -/
def tableAt (table : List Nat) (i : BitVec 3) : Nat := table.getD i.toNat 0

/-- R84: the six settings of a Configuration word. No operation applies it. -/
def cfgUnpack (w : Word) : Nat × Nat × Nat × Bool × Bool × Bool :=
  (tableAt Config.avgTable (w.extractLsb' 9 3), tableAt Config.ctTable (w.extractLsb' 6 3),
    tableAt Config.ctTable (w.extractLsb' 3 3), w.getLsbD 2, w.getLsbD 1, w.getLsbD 0)

/-! ### Alert sources -/

/-- R90: the list of format L: the slots in order, the empty ones skipped. -/
def sourceList (slots : List (BitVec 4)) : List Nat := (slots.filter (· != 0xF)).map BitVec.toNat

/-- R131: the first element that is not one of the six sources. -/
def firstUnrecognized (l : List Nat) : Option Nat := l.find? (5 < ·)

/-- R130: at most one functional source, the one with the largest code, and Conversion Ready beside it. -/
def collapse (l : List Nat) : BitVec 6 :=
  let cnvr : BitVec 6 := if 0 ∈ l then 1 else 0
  match l.filter (1 ≤ ·) with
  | [] => cnvr
  | f => (1 <<< f.foldl max 0) ||| cnvr

/-- R203: the codes `c` with `m[c] = 1`, ascending. -/
def sourcesOf (m : BitVec 6) : List Nat := [0, 1, 2, 3, 4, 5].filter m.getLsbD

/-- R85: the name of a source (log 21). -/
def sourceName (c : Nat) : String :=
  match c with
  | 0 => "Conversion Ready"
  | 1 => "Power Over Limit"
  | 2 => "Bus Voltage Under Voltage"
  | 3 => "Bus Voltage Over Voltage"
  | 4 => "Under Current Limit"
  | _ => "Over Current Limit"

/-- R131: the six source bits at their place in Mask/Enable. -/
def sourceValue (m : BitVec 6) : Word := m.setWidth 16 <<< 10

/-- R173: the unit the alert limit is expressed in. -/
inductive LimitUnit where
  | current
  | voltage
  | power
deriving DecidableEq, Repr

/-- R173: `unit_of`; none when no functional source is active. -/
def unitOf (m : BitVec 6) : Option LimitUnit :=
  if m.getLsbD 5 || m.getLsbD 4 then some .current
  else if m.getLsbD 3 || m.getLsbD 2 then some .voltage
  else if m.getLsbD 1 then some .power
  else none

/-! ### Register addresses -/

/-- R52, R231: the register at a mapped address. -/
def regAt (a : Byte) : Option DevReg :=
  if a = 0x00 then some .config
  else if a = 0x01 then some .current
  else if a = 0x02 then some .busVoltage
  else if a = 0x03 then some .power
  else if a = 0x06 then some .mask
  else if a = 0x07 then some .limit
  else if a = 0xFE then some .manufacturerId
  else if a = 0xFF then some .dieId
  else none

/-! ### Numbers -/

/-- R12: `signed16`. -/
def signed16 (w : Word) : Int := if w.toNat < 32768 then (w.toNat : Int) else (w.toNat : Int) - 65536

/-- R12: `round_int`, an exact half settled by ROUND_TIE (log 19). -/
def roundInt (tie : RoundTie) (q : Rat) : Int :=
  let f := q.floor
  if q - f < 1 / 2 then f
  else if 1 / 2 < q - f then f + 1
  else
    match tie with
    | .halfEven => if f % 2 = 0 then f else f + 1
    | .halfAway => if 0 ≤ q then f + 1 else f

/-! ### Timeouts -/

/-- R191: the device's worst-case conversion latency in microseconds. -/
def convLatency (sh : Shadow) : Nat := sh.avg * (sh.vbusct * sh.mv.toNat + sh.ishct * sh.mc.toNat)

/-- R190: the automatic timeout in microseconds. -/
def autoTimeout (sh : Shadow) : Nat := max 1000 (2 * sh.avg * (sh.vbusct * sh.mv.toNat + sh.ishct * sh.mc.toNat))

end Sys2Proof.Machine
end

