-- ==== Sys2Proof/Machine/AlertCodec.lean ====
section
/-! DEFINITION. The Mask/Enable-register codec (R130 to R137): SET_ALERT_SRC, GET_ALERT, SET_APOL, SET_LATCH,
READ_FLAG. -/

namespace Sys2Proof.Machine

/-- R131. -/
def setAlertSources (l : List Nat) (s : State) : Res Unit :=
  match firstUnrecognized l with
  | some e => .err (.validation e) s
  | none =>
    (rmw .mask 0xFC00 (sourceValue (collapse l)) s).bind fun _ s =>
      .ok () (s.withShadow { s.sh with amask := collapse l })

/-- R133. -/
def setApol (b : Bool) (s : State) : Res Unit :=
  (rmw .mask 0x0002 (bitValue b 1) s).bind fun _ s => .ok () (s.withShadow { s.sh with apol := b })

/-- R134: one write of LEN and its commit. -/
def writeLatch (b : Bool) (s : State) : Res Unit :=
  (rmw .mask 0x0001 (bitValue b 0) s).bind fun _ s => .ok () (s.withShadow { s.sh with latch := b })

/-- R134: LEN passes through 0 always. -/
def setLatch (b : Bool) (s : State) : Res Unit :=
  (writeLatch false s).bind fun _ s => if b then writeLatch true s else .ok () s

/-- R135: the flag is taken from the word read; 0 AFF, 1 CVRF, 2 OVF. -/
def readFlag (sel : Nat) (s : State) : Res Bool :=
  if 2 < sel then .err (.validation sel) s
  else
    (regRead .mask s).bind fun w s =>
      .ok (if sel = 0 then affOf w else if sel = 1 then cvrfOf w else ovfOf w) s

/-- SET_ALERT_SRC, R131. -/
def execSetAlertSrc (a b c d e f : BitVec 4) (s : State) : Host.Outcome State Fault Refusal :=
  complete (setAlertSources (sourceList [a, b, c, d, e, f]) s).unit

/-- GET_ALERT, R132: from the shadow, with no bus transaction. -/
def execGetAlert (s : State) : Host.Outcome State Fault Refusal :=
  complete (.ok (.names ((sourcesOf s.sh.amask).map sourceName)) s)

/-- SET_APOL, R133. -/
def execSetApol (b : Bool) (s : State) : Host.Outcome State Fault Refusal := complete (setApol b s).unit

/-- SET_LATCH, R134. -/
def execSetLatch (b : Bool) (s : State) : Host.Outcome State Fault Refusal := complete (setLatch b s).unit

/-- READ_FLAG, R135. -/
def execReadFlag (sel : BitVec 8) (s : State) : Host.Outcome State Fault Refusal :=
  complete ((readFlag sel.toNat s).bind fun b s => .ok (.bit b) s)

end Sys2Proof.Machine
end

