-- ==== Sys2Proof/Machine/ConfigCodec.lean ====
section
/-! DEFINITION. The Configuration-register codec (R100 to R110): SET_AVG, SET_CT, SET_CONT, SET_MEASV, SET_MEASI,
SET_MODE, GET_CFG. Each setter validates, does its RMW, and then commits the shadow (R101). -/

namespace Sys2Proof.Machine

/-- R102. -/
def setAvg (count : Nat) (s : State) : Res Unit :=
  if count ∈ Config.avgTable then
    (rmw .config 0x0E00 (fieldValue (indexOf Config.avgTable count) 9) s).bind fun _ s =>
      .ok () (s.withShadow { s.sh with avg := count })
  else .err (.validation count) s

/-- R103: the bus-voltage channel. -/
def setBusCt (us : Nat) (s : State) : Res Unit :=
  (rmw .config 0x01C0 (fieldValue (indexOf Config.ctTable us) 6) s).bind fun _ s =>
    .ok () (s.withShadow { s.sh with vbusct := us })

/-- R103: the shunt-current channel. -/
def setShuntCt (us : Nat) (s : State) : Res Unit :=
  (rmw .config 0x0038 (fieldValue (indexOf Config.ctTable us) 3) s).bind fun _ s =>
    .ok () (s.withShadow { s.sh with ishct := us })

/-- R103: the channel is checked first. -/
def setCt (sel us : Nat) (s : State) : Res Unit :=
  if 1 < sel then .err (.validation sel) s
  else if us ∈ Config.ctTable then (if sel = 0 then setBusCt us s else setShuntCt us s)
  else .err (.validation us) s

/-- R104. -/
def setCont (b : Bool) (s : State) : Res Unit :=
  (rmw .config 0x0004 (bitValue b 2) s).bind fun _ s => .ok () (s.withShadow { s.sh with cont := b })

/-- R105. -/
def setMeasV (b : Bool) (s : State) : Res Unit :=
  (rmw .config 0x0002 (bitValue b 1) s).bind fun _ s => .ok () (s.withShadow { s.sh with mv := b })

/-- R106. -/
def setMeasI (b : Bool) (s : State) : Res Unit :=
  (rmw .config 0x0001 (bitValue b 0) s).bind fun _ s => .ok () (s.withShadow { s.sh with mc := b })

/-- R107: three setters one after the other, in the argument order. -/
def setMode (c v i : Bool) (s : State) : Res Unit :=
  (setCont c s).bind fun _ s => (setMeasV v s).bind fun _ s => setMeasI i s

/-- SET_AVG, R102. -/
def execSetAvg (count : BitVec 16) (s : State) : Host.Outcome State Fault Refusal :=
  complete (setAvg count.toNat s).unit

/-- SET_CT, R103. -/
def execSetCt (sel : BitVec 8) (us : BitVec 16) (s : State) : Host.Outcome State Fault Refusal :=
  complete (setCt sel.toNat us.toNat s).unit

/-- SET_CONT, R104. -/
def execSetCont (b : Bool) (s : State) : Host.Outcome State Fault Refusal := complete (setCont b s).unit

/-- SET_MEASV, R105. -/
def execSetMeasv (b : Bool) (s : State) : Host.Outcome State Fault Refusal := complete (setMeasV b s).unit

/-- SET_MEASI, R106. -/
def execSetMeasi (b : Bool) (s : State) : Host.Outcome State Fault Refusal := complete (setMeasI b s).unit

/-- SET_MODE, R107. -/
def execSetMode (c v i : Bool) (s : State) : Host.Outcome State Fault Refusal := complete (setMode c v i s).unit

/-- GET_CFG, R108: the shadow, with no bus transaction. -/
def execGetCfg (s : State) : Host.Outcome State Fault Refusal :=
  complete (.ok (.config s.sh.avg s.sh.vbusct s.sh.ishct s.sh.cont s.sh.mv s.sh.mc) s)

end Sys2Proof.Machine
end

