-- ==== Sys2Proof/Machine/Converter.lean ====
section
/-! DEFINITION. The unit/calibration converter and the alert limit (R160 to R176): RAW2V, RAW2I, RAW2P, V2RAW, I2RAW,
P2RAW, READ_V, READ_I, READ_P, SET_ALERT_LIMIT, GET_ALERT_LIMIT. All arithmetic is exact (R160). -/

namespace Sys2Proof.Machine

/-- R160: 1.25 mV. -/
def lsbV : Rat := 1 / 800

/-- R160: 1.25 mA. -/
def lsbI : Rat := 1 / 800

/-- R160: 10 mW. -/
def lsbP : Rat := 1 / 100

/-- R160, R27. -/
def dividerFactor (x : Session) : Rat := x.rBus / (x.rSeries + x.rBus)

/-- R161. -/
def rawToVolts (x : Session) (raw : Word) : Rat := (raw.toNat : Rat) * lsbV / dividerFactor x + x.vDiode

/-- R162. -/
def rawToAmps (raw : Word) : Rat := (signed16 raw : Rat) * lsbI

/-- R163. -/
def rawToWatts (x : Session) (raw : Word) : Rat := (raw.toNat : Rat) * lsbP / dividerFactor x

/-- R164 steps 2 and 3: the nearest count, if it is in [0, 65535]. -/
def quantize (x : Session) (q : Rat) : Except OpError Word :=
  if roundInt x.roundTie q < 0 ∨ 65535 < roundInt x.roundTie q then .error (.range (roundInt x.roundTie q))
  else .ok (BitVec.ofInt 16 (roundInt x.roundTie q))

/-- R164 step 1 for volts, R166. -/
def voltsToCount (x : Session) (v : Rat) : Rat := (v - x.vDiode) * dividerFactor x / lsbV

/-- R164 step 1 for amperes, R167. -/
def ampsToCount (i : Rat) : Rat := i / lsbI

/-- R164 step 1 for watts, R168. -/
def wattsToCount (x : Session) (p : Rat) : Rat := p * dividerFactor x / lsbP

/-- R166. -/
def voltsToRaw (x : Session) (v : Rat) : Except OpError (Word × Rat) :=
  (quantize x (voltsToCount x v)).map fun n => (n, rawToVolts x n)

/-- R167. -/
def ampsToRaw (x : Session) (i : Rat) : Except OpError (Word × Rat) :=
  (quantize x (ampsToCount i)).map fun n => (n, rawToAmps n)

/-- R168. -/
def wattsToRaw (x : Session) (p : Rat) : Except OpError (Word × Rat) :=
  (quantize x (wattsToCount x p)).map fun n => (n, rawToWatts x n)

/-- R174: the inverse conversion of a unit. -/
def limitToRaw (x : Session) (u : LimitUnit) (q : Rat) : Except OpError (Word × Rat) :=
  match u with
  | .current => ampsToRaw x q
  | .voltage => voltsToRaw x q
  | .power => wattsToRaw x q

/-- R175: the forward conversion of a unit. -/
def rawToLimit (x : Session) (u : LimitUnit) (n : Word) : Rat :=
  match u with
  | .current => rawToAmps n
  | .voltage => rawToVolts x n
  | .power => rawToWatts x n

/-- R170. -/
def readVolts (s : State) : Res Rat := (regRead .busVoltage s).bind fun raw s => .ok (rawToVolts s.session raw) s

/-- R171. -/
def readAmps (s : State) : Res Rat := (regRead .current s).bind fun raw s => .ok (rawToAmps raw) s

/-- R172. -/
def readWatts (s : State) : Res Rat := (regRead .power s).bind fun raw s => .ok (rawToWatts s.session raw) s

/-- R174. -/
def setLimit (x : Rat) (s : State) : Res Unit :=
  match unitOf s.sh.amask with
  | none => .err .precondition s
  | some u => (Res.ofExcept (limitToRaw s.session u x) s).bind fun ny s => regWrite .limit ny.1 s

/-- R175. -/
def getLimit (s : State) : Res Rat :=
  match unitOf s.sh.amask with
  | none => .err .precondition s
  | some u => (regRead .limit s).bind fun n s => .ok (rawToLimit s.session u n) s

/-- The answer of a forward conversion or of a measurement. -/
def Res.quantity (r : Res Rat) : Res Result := r.bind fun q s => .ok (.quantity q) s

/-- The answer of an inverse conversion (R164 step 5). -/
def Res.count (r : Res (Word × Rat)) : Res Result := r.bind fun ny s => .ok (.count ny.1 ny.2) s

/-- RAW2V, R161. -/
def execRaw2v (raw : BitVec 16) (s : State) : Host.Outcome State Fault Refusal :=
  complete (.ok (.quantity (rawToVolts s.session raw)) s)

/-- RAW2I, R162. -/
def execRaw2i (raw : BitVec 16) (s : State) : Host.Outcome State Fault Refusal :=
  complete (.ok (.quantity (rawToAmps raw)) s)

/-- RAW2P, R163. -/
def execRaw2p (raw : BitVec 16) (s : State) : Host.Outcome State Fault Refusal :=
  complete (.ok (.quantity (rawToWatts s.session raw)) s)

/-- V2RAW, R166. -/
def execV2raw (s : State) : Host.Outcome State Fault Refusal :=
  complete (Res.ofExcept (voltsToRaw s.session s.opq) s).count

/-- I2RAW, R167. -/
def execI2raw (s : State) : Host.Outcome State Fault Refusal :=
  complete (Res.ofExcept (ampsToRaw s.session s.opq) s).count

/-- P2RAW, R168. -/
def execP2raw (s : State) : Host.Outcome State Fault Refusal :=
  complete (Res.ofExcept (wattsToRaw s.session s.opq) s).count

/-- READ_V, R170. -/
def execReadV (s : State) : Host.Outcome State Fault Refusal := complete (readVolts s).quantity

/-- READ_I, R171. -/
def execReadI (s : State) : Host.Outcome State Fault Refusal := complete (readAmps s).quantity

/-- READ_P, R172. -/
def execReadP (s : State) : Host.Outcome State Fault Refusal := complete (readWatts s).quantity

/-- SET_ALERT_LIMIT, R174. -/
def execSetAlertLimit (s : State) : Host.Outcome State Fault Refusal := complete (setLimit s.opq s).unit

/-- GET_ALERT_LIMIT, R175. -/
def execGetAlertLimit (s : State) : Host.Outcome State Fault Refusal := complete (getLimit s).quantity

end Sys2Proof.Machine
end

