-- ==== Sys2Proof/Machine/Synchronizer.lean ====
section
/-! DEFINITION. The alert / conversion-ready synchronizer (R190 to R206): AUTO_TMO, WAIT_EDGE, WAIT_FLAG, WAIT_PEAK. A
whole operation is one step (R31); the small steps of R196 are the functions of the first part. -/

namespace Sys2Proof.Machine

/-! ### The small steps of an armed wait (R193, R196) -/

/-- R194: the timeout of a wait with bit `a`. -/
def resolveTimeout (a : Bool) (s : State) : Nat := if a then autoTimeout s.sh else s.opt

/-- R193: Idle to Armed for WAIT_EDGE. -/
def State.armEdge (s : State) (tmo : Nat) : State :=
  (s.withWait { tArm := s.now, tmo := tmo, prev := s.alertN, edge := false }).withFsm .armed

/-- R193, R200: Idle to Armed for WAIT_FLAG, which does not watch the line. -/
def State.armFlag (s : State) (tmo : Nat) : State :=
  (s.withWait { s.w with tArm := s.now, tmo := tmo }).withFsm .armed

/-- R256: the instant the wait expires. -/
def State.deadline (s : State) : Nat := s.w.tArm + s.w.tmo

/-- R193, R196: `now - w.t_arm >= w.tmo`. -/
def State.expired (s : State) : Bool := decide (s.w.tmo ≤ s.now - s.w.tArm)

/-- R196: `on Line(l) while fsm = Armed`. -/
def State.onLine (s : State) (l : Bool) : State :=
  (s.withWait { s.w with prev := l, edge := s.w.edge || (s.w.prev && !l) }).withAlert l

/-- R196: step SIGNAL. -/
def State.signal (s : State) : State := s.withFsm .signaled

/-- R196: step EXPIRE. -/
def State.expire (s : State) : State := s.withFsm .timedOut

/-- R196: the urgent step that fires here, if one does. With an edge and the deadline at one instant either may fire, and
at the deadline the edge may still be to come: `tie` chooses (log 15). -/
def State.urgent (tie : Bool) (s : State) : Option State :=
  if s.w.edge && (tie || !s.expired) then some s.signal
  else if s.expired && !tie then some s.expire
  else none

/-- R196, R33: time passes to the deadline and EXPIRE fires. -/
def State.runOut (s : State) : State := (s.withNow (max s.now s.deadline)).expire

/-- R196: the armed wait over the environment's events. Time does not leap over the deadline. When the events are used
up nothing more happens on the line before the deadline (log 2). -/
def armedRun (tie : Bool) : List EnvEvent → State → State
  | [], s =>
    match s.urgent tie with
    | some t => t
    | none => s.runOut
  | .line l :: r, s =>
    match s.urgent tie with
    | some t => t
    | none => armedRun tie r (s.onLine l)
  | .time d :: r, s =>
    match s.urgent tie with
    | some t => t
    | none => if s.deadline < s.now + d then s.runOut else armedRun tie r (s.withNow (s.now + d))

/-- R195: the time from arming to the first falling edge, if the events hold one; `prev` is the level before them. -/
def firstFall : Bool → Nat → List EnvEvent → Option Nat
  | _, _, [] => none
  | prev, t, .line l :: r => if prev && !l then some t else firstFall l t r
  | prev, t, .time d :: r => firstFall prev (t + d) r

/-! ### WAIT_EDGE and WAIT_FLAG -/

/-- R197, R193: the wait after the gap before arming; back to Idle with the result. -/
def edgeWait (tmo : Nat) (s : State) : State :=
  armedRun s.nextDraw.tie s.nextDraw.events (s.drop.armEdge tmo)

/-- R193, R28: Signaled is success; the machine is Idle again when the operation answers. R29 gives the wait registers no
meaning then; that they keep what the wait left in them is the model's DESIGN CHOICE (log 7). -/
def Res.settled (s : State) : Res Bool := .ok (decide (s.fsm = .signaled)) (s.withFsm .idle)

/-- R197, for a resolved timeout. -/
def waitEdgeFor (tmo : Nat) (s : State) : Res Bool :=
  if s.session.alertPin then Res.settled (edgeWait tmo s.pause) else .err .precondition s

/-- R200: the polling loop: read, test the flag, test the deadline, sleep. Every sleep lasts at least one microsecond
(R9), so `w.tmo + 1` passes reach the deadline and the first equation is not used (log 16). -/
def pollLoop : Nat → State → Res Bool
  | 0, s => Res.settled s.expire
  | n + 1, s =>
    (regRead .mask s).bind fun me s =>
      if cvrfOf me then Res.settled s.signal
      else if s.expired then Res.settled s.expire
      else pollLoop n (s.withNow (s.now + s.session.pollInterval))

/-- R200, for a resolved timeout. -/
def waitFlagFor (tmo : Nat) (s : State) : Res Bool := pollLoop (tmo + 1) (s.armFlag tmo)

/-! ### WAIT_PEAK -/

/-- R201. -/
def isPeak (win : List Rat) (thr : Rat) : Bool :=
  match win with
  | [a, b, c] => decide (c - b < 0 ∧ b - a > 0 ∧ a > thr ∧ b > thr ∧ c > thr)
  | _ => false

/-- R205: the last three elements. -/
def lastThree (l : List Rat) : List Rat := l.drop (l.length - 3)

/-- R202. -/
def peakOverride (s : State) : Res Unit :=
  (setAvg 1 s).bind fun _ s =>
    (setCt 0 140 s).bind fun _ s =>
      (setCt 1 140 s).bind fun _ s =>
        (setMode true true false s).bind fun _ s => setAlertSources [0] s

/-- R203. -/
def peakRestore (x : Saved) (s : State) : Res Unit :=
  (setAvg x.avg s).bind fun _ s =>
    (setCt 0 x.vbusct s).bind fun _ s =>
      (setCt 1 x.ishct s).bind fun _ s =>
        (setMode x.cont x.mv x.mc s).bind fun _ s => setAlertSources (sourcesOf x.amask) s

/-- R30, R205: what WAIT_PEAK records before it overrides. -/
def State.startPeak (s : State) : State :=
  s.withPeak {
    saved := { avg := s.sh.avg, vbusct := s.sh.vbusct, ishct := s.sh.ishct, cont := s.sh.cont, mv := s.sh.mv,
               mc := s.sh.mc, amask := s.sh.amask }
    win := []
    tStart := s.now }

/-- R205: one sample joins the window. -/
def State.pushSample (s : State) (v : Rat) : State := s.withPeak { s.p with win := lastThree (s.p.win ++ [v]) }

/-- R205: what is left of WAIT_PEAK's own timeout `tmo`. -/
def State.remaining (s : State) (tmo : Nat) : Nat := tmo - (s.now - s.p.tStart)

/-- R205: the loop of WAIT_PEAK. Every pass takes a draw of the script or lets time pass, so the fuel given by
`waitPeakFor` suffices and the first equation is not used (R206, log 17). -/
def peakLoop (tmo : Nat) (thr : Rat) : Nat → State → Res Bool
  | 0, s => .ok false s
  | n + 1, s =>
    if tmo ≤ s.now - s.p.tStart then .ok false s
    else
      (waitEdgeFor (min (autoTimeout s.sh) (s.pause.remaining tmo)) s.pause).bind fun r s =>
        (regRead .mask s).bind fun _ s =>
          if r then
            (readVolts s).bind fun v s =>
              if isPeak (s.pushSample v).p.win thr then .ok true (s.pushSample v) else peakLoop tmo thr n (s.pushSample v)
          else peakLoop tmo thr n s

/-- R205, for a resolved timeout. R30 and R291 say that the peak registers do not outlive the operation and give them no
value afterwards; that `State.p` keeps what WAIT_PEAK left in it, whether it ends with success, TimeoutError or
TransportError, until the next WAIT_PEAK or block reset writes it, is the model's DESIGN CHOICE (log 7). -/
def waitPeakFor (tmo : Nat) (thr : Rat) (s : State) : Res Result :=
  if s.session.alertPin then
    (peakOverride s.startPeak).bind fun _ s =>
      (peakLoop tmo thr (tmo + s.env.length + 1) s).bind fun found s =>
        (peakRestore s.p.saved s).bind fun _ s => if found then .ok .success s else .err .timeout s
  else .err .precondition s

/-- AUTO_TMO, R192. -/
def execAutoTmo (s : State) : Host.Outcome State Fault Refusal := complete (.ok (.micros (autoTimeout s.sh)) s)

/-- WAIT_EDGE, R197. -/
def execWaitEdge (a : Bool) (s : State) : Host.Outcome State Fault Refusal :=
  complete ((waitEdgeFor (resolveTimeout a s) s).bind fun r s => .ok (.bit r) s)

/-- WAIT_FLAG, R200. -/
def execWaitFlag (a : Bool) (s : State) : Host.Outcome State Fault Refusal :=
  complete ((waitFlagFor (resolveTimeout a s) s).bind fun r s => .ok (.bit r) s)

/-- WAIT_PEAK, R205: `a = 1` selects PEAK_DEFAULT_TMO_US. -/
def execWaitPeak (a : Bool) (s : State) : Host.Outcome State Fault Refusal :=
  complete (waitPeakFor (if a then Config.peakDefaultTmo else s.opt) s.opq s)

end Sys2Proof.Machine
end

