-- ==== Sys2Proof/Machine/System.lean ====
section
/-! DEFINITION. System operations: RESET, RD_REG, CHECK_ID (R230 to R232). -/

namespace Sys2Proof.Machine

/-- R230: a plain write of the reset bit, then the shadow's reset values. -/
def resetDevice (s : State) : Res Unit :=
  (regWrite .config 0x8000 s).bind fun _ s => .ok () (s.withShadow Shadow.reset)

/-- R231. -/
def readRegister (addr : Byte) (s : State) : Res Word :=
  match regAt addr with
  | none => .err (.validation addr.toNat) s
  | some r => regRead r s

/-- R232: the ok bit of the two identity words. -/
def identityOk (m d : Word) : Bool := m == 0x5449 && d.extractLsb' 4 12 == 0x227

/-- R232. -/
def checkIdentity (s : State) : Res Result :=
  (regRead .manufacturerId s).bind fun m s =>
    (regRead .dieId s).bind fun d s => .ok (.ident (identityOk m d) (d.extractLsb' 0 4)) s

/-- RESET, R230. -/
def execReset (s : State) : Host.Outcome State Fault Refusal := complete (resetDevice s).unit

/-- RD_REG, R231. -/
def execRdReg (sel : BitVec 8) (s : State) : Host.Outcome State Fault Refusal :=
  complete ((readRegister sel s).bind fun w s => .ok (.word w) s)

/-- CHECK_ID, R232. -/
def execCheckId (s : State) : Host.Outcome State Fault Refusal := complete (checkIdentity s)

end Sys2Proof.Machine
end

