-- ==== Sys2Proof/Machine/Dispatch.lean ====
section
/-! DEFINITION. One arm per operation of R92, each one direct call of its meaning. -/

namespace Sys2Proof.Machine

def exec (i : Instr) (s : State) : Host.Outcome State Fault Refusal :=
  match i with
  | .setAvg count => Sys2Proof.Machine.execSetAvg count s
  | .setCt sel us => Sys2Proof.Machine.execSetCt sel us s
  | .setCont b => Sys2Proof.Machine.execSetCont b s
  | .setMeasv b => Sys2Proof.Machine.execSetMeasv b s
  | .setMeasi b => Sys2Proof.Machine.execSetMeasi b s
  | .setMode c v m => Sys2Proof.Machine.execSetMode c v m s
  | .getCfg => Sys2Proof.Machine.execGetCfg s
  | .setAlertSrc a b c d e f => Sys2Proof.Machine.execSetAlertSrc a b c d e f s
  | .getAlert => Sys2Proof.Machine.execGetAlert s
  | .setApol b => Sys2Proof.Machine.execSetApol b s
  | .setLatch b => Sys2Proof.Machine.execSetLatch b s
  | .readFlag sel => Sys2Proof.Machine.execReadFlag sel s
  | .raw2v raw => Sys2Proof.Machine.execRaw2v raw s
  | .raw2i raw => Sys2Proof.Machine.execRaw2i raw s
  | .raw2p raw => Sys2Proof.Machine.execRaw2p raw s
  | .v2raw => Sys2Proof.Machine.execV2raw s
  | .i2raw => Sys2Proof.Machine.execI2raw s
  | .p2raw => Sys2Proof.Machine.execP2raw s
  | .readV => Sys2Proof.Machine.execReadV s
  | .readI => Sys2Proof.Machine.execReadI s
  | .readP => Sys2Proof.Machine.execReadP s
  | .setAlertLimit => Sys2Proof.Machine.execSetAlertLimit s
  | .getAlertLimit => Sys2Proof.Machine.execGetAlertLimit s
  | .autoTmo => Sys2Proof.Machine.execAutoTmo s
  | .waitEdge a => Sys2Proof.Machine.execWaitEdge a s
  | .waitFlag a => Sys2Proof.Machine.execWaitFlag a s
  | .waitPeak a => Sys2Proof.Machine.execWaitPeak a s
  | .reset => Sys2Proof.Machine.execReset s
  | .rdReg sel => Sys2Proof.Machine.execRdReg sel s
  | .checkId => Sys2Proof.Machine.execCheckId s

end Sys2Proof.Machine
end

