-- ==== Sys2Proof/Machine/Step.lean ====
section
/-! DEFINITION. One step: the block takes the host's next event. An operation runs to completion in its step (R31,
R255). -/

namespace Sys2Proof.Machine

/-- R89, R95, R96: a command word is one operation, which runs, or an illegal command, which is answered. -/
def runCommand (w : CommandWord) (s : State) : Host.Outcome State Fault Refusal :=
  match decode w with
  | .ok i => exec i s
  | .error _ => .next (s.rejectCommand w)

/-- R255, R270, R271: the step. With no event of the host pending the block waits while the environment moves (log 3);
that the response port shows the last answer meanwhile is the model's DESIGN CHOICE (log 9). -/
def step (s : State) : Host.Outcome State Fault Refusal :=
  if s.fsm = .idle then
    match s.host with
    | [] => .next s.pause
    | .command w opt opq :: rest => runCommand w (s.accept rest opt opq)
    | .blockReset :: rest => .next (s.blockReset rest)
    | .devicePowerOn :: rest => .next (s.devicePowerOn rest)
  else .refused .busy

/-- The state in which the host's next event is the command `w` (bits from `nbits` up zero) with the side ports as they
stand, and the block is idle, as it must be to take it (R255). -/
def State.withFetchWord (s : State) (nbits w : Nat) : State :=
  { s with host := .command (BitVec.ofNat 32 (w % 2 ^ nbits)) s.opt s.opq :: s.host, fsm := .idle }

end Sys2Proof.Machine
end

