-- ==== Sys2Proof/WellFormed.lean ====
section
/-! DEFINITION. Which operations carry legal operands. R95(b): an operand outside its legal set is not an encoding
matter but a validation failure of the operation, so an ill-formed operation still encodes, decodes and runs: it answers
ValidationError. -/

namespace Sys2Proof

/-- R52: the eight mapped register addresses. -/
def Config.mappedAddresses : List (BitVec 8) := [0x00, 0x01, 0x02, 0x03, 0x06, 0x07, 0xFE, 0xFF]

/-- R90: a slot of SET_ALERT_SRC is empty (0xF) or one of the six sources (0 to 5). -/
def Instr.slotLegal (x : BitVec 4) : Bool := x == 0xF || decide (x.toNat ≤ 5)

/-- R95(b): the operands lie in their legal sets. -/
def Instr.wellFormed : Instr → Bool
  | .setAvg count => decide (count.toNat ∈ Config.avgTable)
  | .setCt sel us => decide (sel.toNat ≤ 1) && decide (us.toNat ∈ Config.ctTable)
  | .setAlertSrc a b c d e f =>
    slotLegal a && slotLegal b && slotLegal c && slotLegal d && slotLegal e && slotLegal f
  | .readFlag sel => decide (sel.toNat ≤ 2)
  | .rdReg sel => decide (sel ∈ Config.mappedAddresses)
  | .setCont _ => true
  | .setMeasv _ => true
  | .setMeasi _ => true
  | .setMode _ _ _ => true
  | .getCfg => true
  | .getAlert => true
  | .setApol _ => true
  | .setLatch _ => true
  | .raw2v _ => true
  | .raw2i _ => true
  | .raw2p _ => true
  | .v2raw => true
  | .i2raw => true
  | .p2raw => true
  | .readV => true
  | .readI => true
  | .readP => true
  | .setAlertLimit => true
  | .getAlertLimit => true
  | .autoTmo => true
  | .waitEdge _ => true
  | .waitFlag _ => true
  | .waitPeak _ => true
  | .reset => true
  | .checkId => true

end Sys2Proof
end

