-- ==== Sys2Proof/Safety.lean ====
section
/-! DEFINITION. What a safe state of this machine is, in the terms the statements use: the legal values of the block's
and the device's registers (R21 to R24, R28, R35, R36), the agreement of shadow and device (R283), and what an
operation leaves alone. -/

namespace Sys2Proof.Machine

/-- R24: at most one of bits 5:1 is set. -/
def oneFunctional (m : BitVec 6) : Bool :=
  (m.getLsbD 1).toNat + (m.getLsbD 2).toNat + (m.getLsbD 3).toNat + (m.getLsbD 4).toNat + (m.getLsbD 5).toNat ≤ 1

/-- R21, R22, R24: the shadow holds table members and at most one functional source. -/
abbrev Shadow.legal (x : Shadow) : Prop :=
  x.avg ∈ Config.avgTable ∧ x.vbusct ∈ Config.ctTable ∧ x.ishct ∈ Config.ctTable ∧ oneFunctional x.amask = true

/-- R35, R36: Configuration bits 15:12 read 0b0110, Mask/Enable bits 9:5 read 0. -/
abbrev Device.legal (d : Device) : Prop := d.config &&& 0xF000 = configFixed ∧ d.mask &&& maskReserved = 0

/-- The states between operations (R28, R21 to R24, R35, R36). -/
abbrev State.legal (s : State) : Prop := s.fsm = .idle ∧ s.sh.legal ∧ s.dev.legal

/-- R283: the shadow says what the device's stored registers hold. -/
abbrev State.agrees (s : State) : Prop :=
  cfgUnpack s.dev.config = (s.sh.avg, s.sh.vbusct, s.sh.ishct, s.sh.cont, s.sh.mv, s.sh.mc) ∧
    s.dev.mask.extractLsb' 10 6 = s.sh.amask ∧ s.dev.mask.getLsbD 1 = s.sh.apol ∧ s.dev.mask.getLsbD 0 = s.sh.latch

/-- A transaction that failed (R72). -/
def Txn.failed : Txn → Bool
  | .read _ _ => false
  | .write _ _ => false
  | .readFailed _ => true
  | .writeFailed _ _ => true

/-- R58, R63: the stored bits of a Mask/Enable word: the six sources, APOL and LEN. -/
def storedMask (m : Word) : Word := m &&& 0xFC03

/-- R63: what a register holds that only the block's writes change: the whole of 0x00 and 0x07, the stored bits of 0x06,
and the identity constants (R39). The measurement registers hold draws (R64) and so nothing of the kind. -/
def Device.stored (d : Device) : DevReg → Word
  | .config => d.config
  | .mask => storedMask d.mask
  | .limit => d.limit
  | .manufacturerId => d.manufacturerId
  | .dieId => d.dieId
  | .current => 0
  | .busVoltage => 0
  | .power => 0

/-- What no operation changes: the session (R9), and the host's ports and pending events (R255). -/
abbrev sameSession (s t : State) : Prop :=
  t.session = s.session ∧ t.opt = s.opt ∧ t.opq = s.opq ∧ t.host = s.host

/-- The frame of an operation that writes at most the registers `written`, apart from the shadow, the response and the
bus trace: the session, the wait primitive at rest (R28), its registers (R29, R30) and every other stored register are
as they were, and time has not gone back (R33). That the registers of R29 and R30 keep a value between the operations they
belong to is the model's choice (log 7). -/
abbrev frame (s t : State) (written : List DevReg) : Prop :=
  sameSession s t ∧ t.fsm = s.fsm ∧ t.w = s.w ∧ t.p = s.p ∧ s.now ≤ t.now ∧
    ∀ r, r ∉ written → t.dev.stored r = s.dev.stored r

/-- A draw in which nothing happens. -/
def quietDraw : Draw where

/-- The device changes no flag by itself in this draw (R63). -/
abbrev flagsQuiet (d : Draw) : Prop := d.cvrf = none ∧ d.aff = none ∧ d.ovf = none

/-- R60 to R62: the flags after one read of Mask/Enable: CVRF is gone, OVF stays, AFF is gone in latch mode and a draw in
transparent mode. -/
abbrev flagsAfterRead (before after : Word) (d : Draw) : Prop :=
  cvrfOf after = false ∧ ovfOf after = ovfOf before ∧ affOf after = (!lenOf before && d.affAfter)

/-- R72, U12: Mask/Enable after a failed read of it: as it was, or as a successful read would have left it (R60 to R62). -/
abbrev flagsOldOrRead (before after : Word) (d : Draw) : Prop :=
  after = before ∨ flagsAfterRead before after d ∧ after &&& ~~~(0x0018 : Word) = before &&& ~~~(0x0018 : Word)

end Sys2Proof.Machine
end

