-- ==== Sys2Proof/Certificates/Slice0/Obligations.lean ====
section
/-! DEFINITION. The statements for the provers. -/

namespace Sys2Proof

/-! ### Groups of operations -/

/-- Operations that store nothing in a device register and nothing in the shadow. -/
def Instr.readsOnly : Instr → Bool
  | .setAvg _ => false
  | .setCt _ _ => false
  | .setCont _ => false
  | .setMeasv _ => false
  | .setMeasi _ => false
  | .setMode _ _ _ => false
  | .setAlertSrc _ _ _ _ _ _ => false
  | .setApol _ => false
  | .setLatch _ => false
  | .setAlertLimit => false
  | .waitPeak _ => false
  | .reset => false
  | _ => true

/-- Operations with no bus transaction at all (R50, R197). -/
def Instr.offTheBus : Instr → Bool
  | .getCfg => true
  | .getAlert => true
  | .raw2v _ => true
  | .raw2i _ => true
  | .raw2p _ => true
  | .v2raw => true
  | .i2raw => true
  | .p2raw => true
  | .autoTmo => true
  | _ => false

/-- Operations that look at the alert line (R32, R250). -/
def Instr.watchesLine : Instr → Bool
  | .waitEdge _ => true
  | .waitPeak _ => true
  | _ => false

end Sys2Proof

namespace Sys2Proof.Machine

/-! ### Vocabulary of the statements -/

/-- A setter of one field: `i` replaces the bits `mask` of register `r` by `v` with one read and one write of the live
register, and commits the shadow after that (R56, R101, R102 to R106, R131, R133). A failed transaction ends it with the
shadow as it was (R72, R101). -/
def FieldSetter (i : Instr) (r : DevReg) (mask v : Word) (commit : Shadow → Shadow) : Prop :=
  ∀ (s : State) (d1 d2 : Draw) (rest : List Draw), s.dev.legal → s.fsm = .idle → s.env = d1 :: d2 :: rest →
    (d1.fails = false → d2.fails = false →
      ∃ t old, exec i s = .next t ∧ t.resp = .done .none ∧ t.sh = commit s.sh ∧
        t.dev.stored r = (s.dev.stored r &&& ~~~mask) ||| v ∧ frame s t [r] ∧ t.env = rest ∧
        t.trace = s.trace ++ [.read r.addr old, .write r.addr ((old &&& ~~~mask) ||| v)] ∧
        (flagsQuiet d1 → flagsQuiet d2 →
          old = s.dev.get r ∧ (if r = .mask then flagsAfterRead s.dev.mask t.dev.mask d1 else t.dev.mask = s.dev.mask))) ∧
    (d1.fails = true →
      ∃ t, exec i s = .next t ∧ t.resp = .failed (.transport r.addr false) ∧ t.sh = s.sh ∧ frame s t [] ∧
        t.trace = s.trace ++ [.readFailed r.addr] ∧ t.env = d2 :: rest ∧
        (flagsQuiet d1 → if r = .mask then flagsOldOrRead s.dev.mask t.dev.mask d1 else t.dev.mask = s.dev.mask)) ∧
    (d1.fails = false → d2.fails = true →
      ∃ t, exec i s = .next t ∧ t.resp = .failed (.transport r.addr true) ∧ t.sh = s.sh ∧ frame s t [r] ∧ t.env = rest ∧
        (t.dev.stored r = s.dev.stored r ∨ t.dev.stored r = (s.dev.stored r &&& ~~~mask) ||| v) ∧
        (flagsQuiet d1 → flagsQuiet d2 →
          if r = .mask then flagsAfterRead s.dev.mask t.dev.mask d1 else t.dev.mask = s.dev.mask))

/-- The bits of the Configuration register that a new field content replaces, from R83's table of masks and base bits. -/
def field (x base : Nat) : Word := BitVec.ofNat 16 (x * 2 ^ base)

/-- R160: R_BUS / (R_SERIES + R_BUS). -/
def divider (x : Session) : Rat := x.rBus / (x.rSeries + x.rBus)

/-- R164 steps 2 and 3: `n` is the nearest count to `q`, and it is in range. -/
def countOf (x : Session) (q : Rat) (n : Word) : Prop := roundInt x.roundTie q = (n.toNat : Int)

/-- R164 step 3: the nearest count to `q` is `n` and out of range. -/
def outOfRange (x : Session) (q : Rat) (n : Int) : Prop := roundInt x.roundTie q = n ∧ (n < 0 ∨ 65535 < n)

/-- R169: the point of the grid with anchor `a` and step `step` that is nearest to `v`. -/
def onGrid (x : Session) (a step v : Rat) : Rat := a + roundInt x.roundTie ((v - a) / step) * step

/-- An inverse conversion (R164): the count and the value it stands for, or RangeError; nothing else changes. That `now`
stands still meanwhile is the model's reading (log 18). -/
def InverseConversion (i : Instr) (q : State → Rat) (forward : Session → Word → Rat) : Prop :=
  ∀ s : State, s.fsm = .idle →
    (∀ n, countOf s.session (q s) n →
      exec i s = .next { s with resp := .done (.count n (forward s.session n)) }) ∧
    (∀ n, outOfRange s.session (q s) n → exec i s = .next { s with resp := .failed (.range n) })

/-- A measurement read (R170 to R172): one read of `r`, which holds what the device gives at that moment (R64). -/
def MeasurementRead (i : Instr) (r : DevReg) (raw : Draw → Word) (forward : Session → Word → Rat) : Prop :=
  ∀ (s : State) (d : Draw) (rest : List Draw), s.fsm = .idle → s.env = d :: rest →
    (d.fails = false →
      ∃ t, exec i s = .next t ∧ t.resp = .done (.quantity (forward s.session (raw d))) ∧ t.sh = s.sh ∧
        t.trace = s.trace ++ [.read r.addr (raw d)] ∧ t.env = rest ∧ frame s t [] ∧
        (flagsQuiet d → t.dev.mask = s.dev.mask)) ∧
    (d.fails = true →
      ∃ t, exec i s = .next t ∧ t.resp = .failed (.transport r.addr false) ∧ t.sh = s.sh ∧
        t.trace = s.trace ++ [.readFailed r.addr] ∧ t.env = rest ∧ frame s t [] ∧
        (flagsQuiet d → t.dev.mask = s.dev.mask))

/-- R95(a): the match and mask of each row of the opcode map. -/
def opcodeRows : List (CommandWord × CommandWord) :=
  [(0x01000000, 0xFFFF0000), (0x02000000, 0xFF000000), (0x03000000, 0xFFFFFFFE), (0x04000000, 0xFFFFFFFE),
   (0x05000000, 0xFFFFFFFE), (0x06000000, 0xFFFFFFF8), (0x07000000, 0xFFFFFFFF), (0x10000000, 0xFF000000),
   (0x11000000, 0xFFFFFFFF), (0x12000000, 0xFFFFFFFE), (0x13000000, 0xFFFFFFFE), (0x14000000, 0xFF00FFFF)] ++
  [(0x20000000, 0xFFFF0000), (0x21000000, 0xFFFF0000), (0x22000000, 0xFFFF0000), (0x23000000, 0xFFFFFFFF),
   (0x24000000, 0xFFFFFFFF), (0x25000000, 0xFFFFFFFF), (0x26000000, 0xFFFFFFFF), (0x27000000, 0xFFFFFFFF),
   (0x28000000, 0xFFFFFFFF), (0x29000000, 0xFFFFFFFF), (0x2A000000, 0xFFFFFFFF)] ++
  [(0x30000000, 0xFFFFFFFF), (0x31000000, 0xFFFFFFFE), (0x32000000, 0xFFFFFFFE), (0x33000000, 0xFFFFFFFE),
   (0x40000000, 0xFFFFFFFF), (0x41000000, 0xFF00FFFF), (0x42000000, 0xFFFFFFFF)]

/-- An error that is raised before any bus transaction (R248). -/
def OpError.precise : OpError → Bool
  | .validation _ => true
  | .illegalCommand _ => true
  | .precondition => true
  | .range _ => true
  | .transport _ _ => false
  | .timeout => false

/-- R107: the Configuration word `w` after the first `k` of SET_MODE's three steps. -/
def modeWord (w : Word) (c v m : Bool) (k : Nat) : Word :=
  match k with
  | 0 => w
  | 1 => (w &&& 0xFFFB) ||| field c.toNat 2
  | 2 => (w &&& 0xFFF9) ||| field (2 * c.toNat + v.toNat) 1
  | _ => (w &&& 0xFFF8) ||| field (4 * c.toNat + 2 * v.toNat + m.toNat) 0

/-- The value of the last successful write to the address `a` in a bus trace, `w` if there is none. -/
def lastWrite (a : Byte) (w : Word) (l : List Txn) : Word :=
  l.foldl (fun w x => match x with
    | .write b v => if b = a then v else w
    | .read _ _ => w
    | .readFailed _ => w
    | .writeFailed _ _ => w) w

/-- What `Device.stored` shows of a register that holds `w`. -/
def storedAs (r : DevReg) (w : Word) : Word := if r = .mask then storedMask w else w

/-- R72: how the response names a failed transaction. -/
def Txn.transportError : Txn → OpError
  | .read a _ => .transport a false
  | .readFailed a => .transport a false
  | .write a _ => .transport a true
  | .writeFailed a _ => .transport a true

/-- R202, R203: the bus trace of an override or a restore of WAIT_PEAK that starts from the Configuration word `c` and the
Mask/Enable word `m`: SET_AVG, SET_CT BUS and SET_CT SHUNT with the table indices `a`, `v` and `i`, SET_MODE `x y z`, and
SET_ALERT_SRC with the source bits `src`. -/
def configureTrace (c m : Word) (a v i : Nat) (x y z : Bool) (src : BitVec 6) : List Txn :=
  let c1 := (c &&& 0xF1FF) ||| field a 9
  let c2 := (c1 &&& 0xFE3F) ||| field v 6
  let c3 := (c2 &&& 0xFFC7) ||| field i 3
  [.read 0 c, .write 0 c1, .read 0 c1, .write 0 c2, .read 0 c2, .write 0 c3] ++
  [.read 0 c3, .write 0 (modeWord c3 x y z 1), .read 0 (modeWord c3 x y z 1), .write 0 (modeWord c3 x y z 2),
   .read 0 (modeWord c3 x y z 2), .write 0 (modeWord c3 x y z 3)] ++
  [.read 6 m, .write 6 ((m &&& 0x03FF) ||| field src.toNat 10)]

/-- R202: the trace of the override: one sample, 140 microseconds on both channels, continuous, voltage only, and Conversion
Ready the only alert source. -/
def overrideTrace (c m : Word) : List Txn := configureTrace c m 0 0 0 true true false 0b000001

/-- R203: the trace `l` is that of a restore of the settings `sh` after an override, which leaves 0x6006 in Configuration;
`m` is the Mask/Enable word it finds. -/
def isRestoreTrace (sh : Shadow) (m : Word) (l : List Txn) : Prop :=
  ∃ a v i : Nat,
    [1, 4, 16, 64, 128, 256, 512, 1024][a]? = some sh.avg ∧
    [140, 204, 332, 588, 1100, 2116, 4156, 8244][v]? = some sh.vbusct ∧
    [140, 204, 332, 588, 1100, 2116, 4156, 8244][i]? = some sh.ishct ∧
    l = configureTrace 0x6006 m a v i sh.cont sh.mv sh.mc sh.amask

/-- R204: the bus trace of one pass of WAIT_PEAK's loop: one read of Mask/Enable, and after an inner result 1 one sample. -/
def passTrace (x : Word × Option Word) : List Txn :=
  match x.2 with
  | none => [.read 6 x.1]
  | some raw => [.read 6 x.1, .read 2 raw]

/-- R201, R205: the newest three of the samples `raws`, in volts, are a peak above `thr`. -/
def endsInPeak (x : Session) (thr : Rat) (raws : List Word) : Bool :=
  isPeak ((raws.drop (raws.length - 3)).map fun raw => (raw.toNat : Rat) * (1 / 800) / divider x + x.vDiode) thr

/-- R204: the four draws of a pass of WAIT_PEAK's loop in which nothing happens: two gaps, the inner wait that runs out, the
read of Mask/Enable. -/
def silentPasses (n : Nat) : List Draw := List.replicate (4 * n) quietDraw

/-- The three draws and two gaps of one signaled pass of WAIT_PEAK's loop: two gaps in which nothing happens, an edge after
`k` microseconds, the re-arming read, and a sample `raw` (R204, R205). -/
def peakPass (k : Nat) (raw : Word) : List Draw :=
  [quietDraw, quietDraw, { events := [.line true, .time k, .line false] }, quietDraw, { busVoltage := raw }]

end Sys2Proof.Machine

open Sys2Proof Sys2Proof.Machine

/-! ### The command word -/

/-- R96: decoding is total, and encoding and decoding are inverse to each other. -/
def Obligations.DecodeAndEncodeAgree : Prop :=
  (∀ i : Instr, decode (encode i) = .ok i) ∧
    ∀ w : CommandWord, (∃ i, decode w = .ok i ∧ encode i = w) ∨ ∃ r, decode w = .error r

/-- R92, R95(a): a word is illegal exactly when no row of the opcode map matches it. -/
def Obligations.IllegalWordsMatchNoRow : Prop :=
  ∀ w : CommandWord, (∃ r, decode w = .error r) ↔ ∀ row ∈ opcodeRows, w &&& row.2 ≠ row.1

/-- R90, R92: words written out from the spec's encoding decode to the operation they stand for. -/
def Obligations.WrittenOutWordsDecode : Prop :=
  decode 0b00000001000000000000001000000000 = .ok (.setAvg 512) ∧
    decode 0b00000010000000010000000011001100 = .ok (.setCt 1 204) ∧
    decode 0b00000110000000000000000000000010 = .ok (.setMode false true false) ∧
    decode 0b00010000111111110101001000010000 = .ok (.setAlertSrc 0 1 2 5 0xF 0xF) ∧
    decode 0b00010100000000010000000000000000 = .ok (.readFlag 1) ∧
    decode 0b00110001000000000000000000000001 = .ok (.waitEdge true) ∧
    decode 0b01000001111111100000000000000000 = .ok (.rdReg 0xFE) ∧
    decode 0b00000111000000000000000000000001 = .error (.mustBeZero 0x07)

/-! ### The step -/

/-- R89, R255: the next command of the host that decodes to `i` runs as `i`, with its side ports, an empty bus trace and
whatever time passes before the block takes it up. -/
def Obligations.StepRunsDecodedOperation : Prop :=
  ∀ (s : State) (w : CommandWord) (opt : Nat) (opq : Rat) (rest : List HostEvent) (i : Instr),
    s.fsm = .idle → s.host = .command w opt opq :: rest → decode w = .ok i →
      ∃ u, step s = exec i u ∧ u.opt = opt ∧ u.opq = opq ∧ u.host = rest ∧ u.trace = [] ∧ u.sh = s.sh ∧ u.dev = s.dev ∧
        u.session = s.session ∧ u.fsm = s.fsm ∧ u.w = s.w ∧ u.p = s.p ∧ s.now ≤ u.now

/-- R95(a): an illegal command is answered with ValidationError and the word, with no transaction and no change of the
block's or the device's state. -/
def Obligations.IllegalCommandTouchesNothing : Prop :=
  ∀ (s : State) (w : CommandWord) (opt : Nat) (opq : Rat) (rest : List HostEvent),
    s.fsm = .idle → s.host = .command w opt opq :: rest → (∀ row ∈ opcodeRows, w &&& row.2 ≠ row.1) →
      ∃ t, step s = .next t ∧ t.resp = .failed (.illegalCommand w) ∧ t.trace = [] ∧ t.sh = s.sh ∧ t.dev = s.dev ∧
        t.fsm = s.fsm ∧ t.w = s.w ∧ t.p = s.p ∧ t.session = s.session ∧ t.host = rest

/-- R255, U20: with an operation in progress no second one is accepted. -/
def Obligations.StepRefusesWhileBusy : Prop := ∀ s : State, s.fsm ≠ .idle → step s = .refused .busy

/-- R270, R273, R42: block reset sets the block's registers and leaves the session's parameters and the device. That the
alert line, the time base and the environment's script also stand still across it is the model's choice (log 9): R42 calls
the line an input, and R33 lets time pass. -/
def Obligations.BlockResetSetsTheBlock : Prop :=
  ∀ (s : State) (rest : List HostEvent), s.fsm = .idle → s.host = .blockReset :: rest →
    ∃ t, step s = .next t ∧ t.session = s.session ∧ t.sh.avg = 1 ∧ t.sh.vbusct = 1100 ∧ t.sh.ishct = 1100 ∧
      t.sh.cont = true ∧ t.sh.mv = true ∧ t.sh.mc = true ∧ t.sh.amask = 0b000000 ∧ t.sh.apol = false ∧ t.sh.latch = false ∧
      t.fsm = .idle ∧ t.dev = s.dev ∧ t.alertN = s.alertN ∧ t.now = s.now ∧ t.host = rest ∧ t.env = s.env

/-- R271, R42: device power-on sets the device's registers and leaves the block as it was. That the response port still shows
the last answer is the model's choice (log 9). -/
def Obligations.DevicePowerOnLeavesTheBlock : Prop :=
  ∀ (s : State) (rest : List HostEvent), s.fsm = .idle → s.host = .devicePowerOn :: rest →
    ∃ t, step s = .next t ∧ t.dev.config = 0x6127 ∧ t.dev.mask = 0x0000 ∧ t.dev.limit = 0x0000 ∧
      t.dev.manufacturerId = s.dev.manufacturerId ∧ t.dev.dieId = s.dev.dieId ∧ t.sh = s.sh ∧ t.fsm = s.fsm ∧ t.w = s.w ∧
      t.p = s.p ∧ t.session = s.session ∧ t.resp = s.resp ∧ t.host = rest

/-- R42, R39: the values the spec gives for reset. That a device fresh from power-on stands beside the block in
`State.reset` is the model's choice (log 4). -/
def Obligations.ResetStateHoldsTheSpecsValues : Prop :=
  State.reset.sh = { avg := 1, vbusct := 1100, ishct := 1100, cont := true, mv := true, mc := true, amask := 0b000000,
                     apol := false, latch := false } ∧
    State.reset.fsm = .idle ∧ State.reset.dev.config = 0x6127 ∧ State.reset.dev.mask = 0x0000 ∧
    State.reset.dev.limit = 0x0000 ∧ State.reset.dev.manufacturerId = 0x5449 ∧
    State.reset.dev.dieId.extractLsb' 4 12 = 0x227

/-! ### Invariants -/

/-- The model's reset state is legal, and shadow and device agree in it. This rests on the model's choice of log 4, a device
fresh from power-on: R270 leaves the device as it was, and R283(a) lets it disagree at a block reset. -/
def Obligations.ResetStateIsLegalAndAgrees : Prop := State.reset.legal ∧ State.reset.agrees

/-- R21, R22, R24, R28, R35, R36: every step keeps the registers legal: table members in the shadow, at most one functional
source, Idle between operations, Configuration bits 15:12 at 0b0110, Mask/Enable bits 9:5 at 0. -/
def Obligations.StepKeepsRegistersLegal : Prop := ∀ s t : State, s.legal → step s = .next t → t.legal

/-- R283: if shadow and device agreed before an operation and no transaction of it failed, they agree after it. -/
def Obligations.OperationKeepsShadowAndDeviceInAgreement : Prop :=
  ∀ (s t : State) (w : CommandWord) (opt : Nat) (opq : Rat) (rest : List HostEvent),
    s.legal → s.agrees → s.host = .command w opt opq :: rest → step s = .next t → (∀ x ∈ t.trace, x.failed = false) →
      t.agrees

/-- R9, R20, R39, R255, R273: no operation changes the session's parameters, the side ports, the host's pending events or
the identity registers, and time never goes back; no step at all, a reset or a power-on included, changes the session's
parameters or the identity registers. -/
def Obligations.NoOperationChangesSessionOrIdentity : Prop :=
  (∀ (i : Instr) (s t : State), exec i s = .next t →
    sameSession s t ∧ t.dev.manufacturerId = s.dev.manufacturerId ∧ t.dev.dieId = s.dev.dieId ∧ s.now ≤ t.now) ∧
  ∀ s t : State, step s = .next t →
    t.session = s.session ∧ t.dev.manufacturerId = s.dev.manufacturerId ∧ t.dev.dieId = s.dev.dieId ∧ s.now ≤ t.now

/-- R28, R91, R240, R247: every operation answers the host, with a result and status 0 or with an error and a status from 1
to 5, and leaves the wait primitive Idle. -/
def Obligations.EveryOperationAnswersAndIsIdle : Prop :=
  ∀ (i : Instr) (s : State), s.fsm = .idle →
    ∃ t n, exec i s = .next t ∧ t.fsm = .idle ∧ t.resp.status = some n ∧
      ((n = 0 ∧ ∃ r, t.resp = .done r) ∨ (1 ≤ n ∧ n ≤ 5 ∧ ∃ e, t.resp = .failed e))

/-- R248: ValidationError, PreconditionError and RangeError leave the block, the device and the bus exactly as they
were. That `now` stands still meanwhile is the model's reading (log 18). -/
def Obligations.PreciseErrorsLeaveNoTrace : Prop :=
  ∀ (i : Instr) (s t : State) (e : OpError), s.legal → exec i s = .next t → t.resp = .failed e → e.precise = true →
    t = { s with resp := .failed e }

/-- R95(b), R241: in a legal state an operation answers ValidationError exactly when its operands are outside their legal
sets. -/
def Obligations.ValidationErrorMeansIllegalOperand : Prop :=
  ∀ (i : Instr) (s : State), s.legal →
    ((∃ t n, exec i s = .next t ∧ t.resp = .failed (.validation n)) ↔ i.wellFormed = false)

/-- R102, R103, R131, R135, R231, R241: the offending value of each ValidationError, and nothing else changes. That
`now` stands still meanwhile is the model's reading (log 18). -/
def Obligations.ValidationErrorsNameTheOperand : Prop :=
  ∀ s : State, s.fsm = .idle →
    (∀ count : BitVec 16, count.toNat ∉ [1, 4, 16, 64, 128, 256, 512, 1024] →
      exec (.setAvg count) s = .next { s with resp := .failed (.validation count.toNat) }) ∧
    (∀ (sel : BitVec 8) (us : BitVec 16), 1 < sel.toNat →
      exec (.setCt sel us) s = .next { s with resp := .failed (.validation sel.toNat) }) ∧
    (∀ (sel : BitVec 8) (us : BitVec 16), sel.toNat ≤ 1 →
      us.toNat ∉ [140, 204, 332, 588, 1100, 2116, 4156, 8244] →
      exec (.setCt sel us) s = .next { s with resp := .failed (.validation us.toNat) }) ∧
    (∀ (a b c d e f x : BitVec 4) (before after : List (BitVec 4)), [a, b, c, d, e, f] = before ++ x :: after →
      (∀ y ∈ before, y = 0xF ∨ y.toNat ≤ 5) → 5 < x.toNat → x ≠ 0xF →
      exec (.setAlertSrc a b c d e f) s = .next { s with resp := .failed (.validation x.toNat) }) ∧
    (∀ sel : BitVec 8, 2 < sel.toNat →
      exec (.readFlag sel) s = .next { s with resp := .failed (.validation sel.toNat) }) ∧
    (∀ sel : BitVec 8, sel ∉ Config.mappedAddresses →
      exec (.rdReg sel) s = .next { s with resp := .failed (.validation sel.toNat) })

/-- R62, R63, R198(d): operations that only read leave the shadow and every stored register as they were, whatever the
environment does. -/
def Obligations.ReadersStoreNothing : Prop :=
  ∀ (i : Instr) (s t : State), i.readsOnly = true → exec i s = .next t →
    t.sh = s.sh ∧ ∀ r, t.dev.stored r = s.dev.stored r

/-- R50: the converter's pure operations, the getters and AUTO_TMO perform no transaction and change nothing but the
response. That `now` stands still meanwhile is the model's reading (log 18). -/
def Obligations.PureOperationsStayOffTheBus : Prop :=
  ∀ (i : Instr) (s t : State), i.offTheBus = true → s.fsm = .idle → exec i s = .next t → t = { s with resp := t.resp }

/-- R32, R250: outside the waits for an edge the level of the alert line makes no difference. -/
def Obligations.AlertLineIgnoredOutsideEdgeWaits : Prop :=
  ∀ (i : Instr) (s t u : State) (b : Bool), i.watchesLine = false → exec i s = .next t →
    exec i { s with alertN := b } = .next u →
      u.resp = t.resp ∧ u.sh = t.sh ∧ u.dev = t.dev ∧ u.trace = t.trace ∧ u.now = t.now ∧ u.fsm = t.fsm

/-! ### The register space -/

/-- R57 to R59: what a successful write leaves in the register it names, and in no other. -/
def Obligations.WritesStoreWhatTheContractSays : Prop :=
  ∀ (s t : State) (v : Word) (u : Unit),
    (v.getLsbD 15 = false → regWrite .config v s = .ok u t →
      t.dev.config = 0x6000 ||| (v &&& 0x0FFF) ∧ ∀ r, r ≠ .config → t.dev.stored r = s.dev.stored r) ∧
    (v.getLsbD 15 = true → regWrite .config v s = .ok u t →
      t.dev.config = 0x6127 ∧ t.dev.mask = 0x0000 ∧ t.dev.limit = 0x0000 ∧
        t.dev.manufacturerId = s.dev.manufacturerId ∧ t.dev.dieId = s.dev.dieId) ∧
    (regWrite .mask v s = .ok u t →
      storedMask t.dev.mask = v &&& 0xFC03 ∧ (flagsQuiet s.nextDraw → t.dev.mask &&& 0x001C = s.dev.mask &&& 0x001C) ∧
        t.dev.mask &&& maskReserved = 0 ∧ ∀ r, r ≠ .mask → t.dev.stored r = s.dev.stored r) ∧
    (regWrite .limit v s = .ok u t → t.dev.limit = v ∧ ∀ r, r ≠ .limit → t.dev.stored r = s.dev.stored r)

/-- R60 to R62: every successful read leaves the stored bits; a read of Mask/Enable clears CVRF, and AFF in latch mode, of
the word it returned, and changes no other bit of it; a read of any other register has no side effect. With no flag
change by the device before the read, the word returned is the one the register held. -/
def Obligations.ReadingMaskEnableClearsFlags : Prop :=
  ∀ (s t : State) (r : DevReg) (v : Word), regRead r s = .ok v t →
    (∀ x, t.dev.stored x = s.dev.stored x) ∧
    (r = .mask → flagsAfterRead v t.dev.mask s.nextDraw ∧ t.dev.mask &&& ~~~(0x0018 : Word) = v &&& ~~~(0x0018 : Word) ∧
      (flagsQuiet s.nextDraw → v = s.dev.mask)) ∧
    (r ≠ .mask → flagsQuiet s.nextDraw → t.dev.mask = s.dev.mask)

/-- R63: what the device does by itself never touches a stored bit. -/
def Obligations.DeviceNeverChangesStoredBits : Prop :=
  ∀ (d : Device) (x : Draw) (r : DevReg), (d.evolve x).stored r = d.stored r

/-- R72, U12: a failed read leaves every stored register, and a failed read of 0x06 the flags as they were or as a
successful read would have; a failed write leaves the registers as they were or as a successful write would have. The
flags are spoken of where the device changes none by itself. -/
def Obligations.FailedTransactionsKeepOldOrNew : Prop :=
  ∀ (s t : State) (r : DevReg) (e : OpError),
    (regRead r s = .err e t → e = .transport r.addr false ∧ (∀ x, t.dev.stored x = s.dev.stored x) ∧
      (flagsQuiet s.nextDraw →
        if r = .mask then flagsOldOrRead s.dev.mask t.dev.mask s.nextDraw else t.dev.mask = s.dev.mask)) ∧
    (∀ v : Word, regWrite r v s = .err e t → e = .transport r.addr true ∧
      ((∀ x, t.dev.stored x = s.dev.stored x) ∧ (flagsQuiet s.nextDraw → t.dev.mask = s.dev.mask) ∨
        t.dev.stored = ((s.dev.evolve s.nextDraw).afterWrite r v).stored ∧
          (flagsQuiet s.nextDraw → t.dev.mask = (s.dev.afterWrite r v).mask)))

/-- R53, R66: the frames of a write and of a read, most significant byte first, and the two bytes give the value back. -/
def Obligations.WireFramesAreBigEndian : Prop :=
  ∀ (i2c : BitVec 7) (a : Byte) (v : Word),
    Txn.frame i2c (.write a v) =
      some [.start, .sent (i2c.setWidth 8 <<< 1), .sent a, .sent (v.extractLsb' 8 8), .sent (v.extractLsb' 0 8), .stop] ∧
    Txn.frame i2c (.read a v) =
      some [.start, .sent (i2c.setWidth 8 <<< 1), .sent a, .repeatedStart, .sent (i2c.setWidth 8 <<< 1 ||| 1),
        .received (v.extractLsb' 8 8), .received (v.extractLsb' 0 8), .stop] ∧
    fromWire (v.extractLsb' 8 8) (v.extractLsb' 0 8) = v

/-! ### The Configuration codec -/

/-- R102: SET_AVG writes the three-bit index of the count into bits 11:9. -/
def Obligations.SetAvgWritesTheIndex : Prop :=
  ∀ (x : Nat) (count : BitVec 16), [1, 4, 16, 64, 128, 256, 512, 1024][x]? = some count.toNat →
    FieldSetter (.setAvg count) .config 0x0E00 (field x 9) fun sh => { sh with avg := count.toNat }

/-- R103: SET_CT writes the three-bit index of the time into bits 8:6 for the bus and 5:3 for the shunt. -/
def Obligations.SetCtWritesTheIndex : Prop :=
  ∀ (x : Nat) (us : BitVec 16), [140, 204, 332, 588, 1100, 2116, 4156, 8244][x]? = some us.toNat →
    (FieldSetter (.setCt 0 us) .config 0x01C0 (field x 6) fun sh => { sh with vbusct := us.toNat }) ∧
    FieldSetter (.setCt 1 us) .config 0x0038 (field x 3) fun sh => { sh with ishct := us.toNat }

/-- R104 to R106: the three mode-bit setters. -/
def Obligations.ModeBitSettersWriteOneBit : Prop :=
  ∀ b : Bool,
    (FieldSetter (.setCont b) .config 0x0004 (if b then 0x0004 else 0) fun sh => { sh with cont := b }) ∧
    (FieldSetter (.setMeasv b) .config 0x0002 (if b then 0x0002 else 0) fun sh => { sh with mv := b }) ∧
    FieldSetter (.setMeasi b) .config 0x0001 (if b then 0x0001 else 0) fun sh => { sh with mc := b }

/-- R107: SET_MODE performs three reads and three writes in the argument order, and ends with all three bits set as
asked; it writes no flag (R101). -/
def Obligations.SetModeIsThreeWrites : Prop :=
  ∀ (c v m : Bool) (s : State) (d1 d2 d3 d4 d5 d6 : Draw) (rest : List Draw), s.dev.legal → s.fsm = .idle →
    s.env = d1 :: d2 :: d3 :: d4 :: d5 :: d6 :: rest →
    d1.fails = false → d2.fails = false → d3.fails = false → d4.fails = false → d5.fails = false → d6.fails = false →
      ∃ t, exec (.setMode c v m) s = .next t ∧ t.resp = .done .none ∧
        t.sh = { s.sh with cont := c, mv := v, mc := m } ∧ frame s t [.config] ∧ t.env = rest ∧
        t.dev.config = (s.dev.config &&& 0xFFF8) ||| field (4 * c.toNat + 2 * v.toNat + m.toNat) 0 ∧
        t.trace = s.trace ++
          [.read 0 s.dev.config, .write 0 ((s.dev.config &&& 0xFFFB) ||| field c.toNat 2),
           .read 0 ((s.dev.config &&& 0xFFFB) ||| field c.toNat 2),
           .write 0 ((s.dev.config &&& 0xFFF9) ||| field (2 * c.toNat + v.toNat) 1),
           .read 0 ((s.dev.config &&& 0xFFF9) ||| field (2 * c.toNat + v.toNat) 1),
           .write 0 ((s.dev.config &&& 0xFFF8) ||| field (4 * c.toNat + 2 * v.toNat + m.toNat) 0)] ∧
        ((∀ d ∈ [d1, d2, d3, d4, d5, d6], flagsQuiet d) → t.dev.mask = s.dev.mask)

/-- R107, R72, R248: SET_MODE ends at its first failed transaction, whichever of the six it is: `ok` are the draws of those
before it. The steps completed stay in force, in the device and in the shadow; a failed write leaves the word as it was
or as the step would have; no later transaction is attempted. -/
def Obligations.SetModeStopsAtTheFirstFailure : Prop :=
  ∀ (c v m : Bool) (s : State) (ok : List Draw) (d : Draw) (rest : List Draw), s.dev.legal → s.fsm = .idle →
    s.env = ok ++ d :: rest → ok.length < 6 → (∀ x ∈ ok, x.fails = false) → d.fails = true →
      ∃ t, exec (.setMode c v m) s = .next t ∧ t.resp = .failed (.transport 0x00 (decide (ok.length % 2 = 1))) ∧
        t.sh = { s.sh with cont := if 2 ≤ ok.length then c else s.sh.cont, mv := if 4 ≤ ok.length then v else s.sh.mv } ∧
        (t.dev.config = modeWord s.dev.config c v m (ok.length / 2) ∨
          ok.length % 2 = 1 ∧ t.dev.config = modeWord s.dev.config c v m (ok.length / 2 + 1)) ∧
        frame s t [.config] ∧ t.env = rest ∧ t.trace.length = s.trace.length + ok.length + 1 ∧
        ((∀ x ∈ ok, flagsQuiet x) → flagsQuiet d → t.dev.mask = s.dev.mask)

/-- R108: GET_CFG is the word 0x07000000 and answers the six shadow settings; nothing else changes. That `now` stands
still meanwhile is the model's reading (log 18). -/
def Obligations.GetCfgAnswersTheShadow : Prop :=
  encode .getCfg = 0x07000000 ∧ ∀ s : State, exec .getCfg s = .next { s with
    resp := .done (.config s.sh.avg s.sh.vbusct s.sh.ishct s.sh.cont s.sh.mv s.sh.mc) }

/-- R84: unpacking looks the three indices up and takes the three mode bits, and it gives the settings of a packed
Configuration word back. -/
def Obligations.UnpackInvertsPack : Prop :=
  (∀ w : Word, ∃ a v i : Nat,
    [1, 4, 16, 64, 128, 256, 512, 1024][(w.toNat / 512) % 8]? = some a ∧
    [140, 204, 332, 588, 1100, 2116, 4156, 8244][(w.toNat / 64) % 8]? = some v ∧
    [140, 204, 332, 588, 1100, 2116, 4156, 8244][(w.toNat / 8) % 8]? = some i ∧
    cfgUnpack w = (a, v, i, w.getLsbD 2, w.getLsbD 1, w.getLsbD 0)) ∧
  ∀ (avg vct ict : Nat) (c v m : Bool), avg ∈ Config.avgTable → vct ∈ Config.ctTable → ict ∈ Config.ctTable →
    cfgUnpack (cfgPack avg vct ict c v m) = (avg, vct, ict, c, v, m)

/-! ### The Mask/Enable codec -/

/-- R130: the collapsed mask: Conversion Ready if it is asked for, and of the functional sources the highest asked for. -/
def Obligations.CollapseKeepsTheHighestSource : Prop :=
  ∀ l : List Nat, (∀ c ∈ l, c ≤ 5) →
    ((collapse l).getLsbD 0 = true ↔ 0 ∈ l) ∧
    ∀ k, 1 ≤ k → k ≤ 5 → ((collapse l).getLsbD k = true ↔ k ∈ l ∧ ∀ j ∈ l, j ≤ k)

/-- R131: SET_ALERT_SRC with recognized sources writes the collapsed mask into bits 15:10 and keeps it in the shadow. -/
def Obligations.SetAlertSrcWritesTheCollapsedMask : Prop :=
  ∀ a b c d e f : BitVec 4, (∀ x ∈ [a, b, c, d, e, f], x = 0xF ∨ x.toNat ≤ 5) →
    FieldSetter (.setAlertSrc a b c d e f) .mask 0xFC00
      (field (collapse (([a, b, c, d, e, f].filter (· ≠ 0xF)).map BitVec.toNat)).toNat 10)
      fun sh => { sh with amask := collapse (([a, b, c, d, e, f].filter (· ≠ 0xF)).map BitVec.toNat) }

/-- R132: GET_ALERT answers the names of the active sources in ascending bit order. That `now` stands still meanwhile is
the model's reading (log 18). -/
def Obligations.GetAlertAnswersTheNames : Prop :=
  ∀ s : State, exec .getAlert s = .next { s with resp := .done (.names (
    (if s.sh.amask.getLsbD 0 then ["Conversion Ready"] else []) ++
    (if s.sh.amask.getLsbD 1 then ["Power Over Limit"] else []) ++
    (if s.sh.amask.getLsbD 2 then ["Bus Voltage Under Voltage"] else []) ++
    (if s.sh.amask.getLsbD 3 then ["Bus Voltage Over Voltage"] else []) ++
    (if s.sh.amask.getLsbD 4 then ["Under Current Limit"] else []) ++
    (if s.sh.amask.getLsbD 5 then ["Over Current Limit"] else []))) }

/-- R133: SET_APOL writes bit 1 of Mask/Enable. -/
def Obligations.SetApolWritesBitOne : Prop :=
  ∀ b : Bool, FieldSetter (.setApol b) .mask 0x0002 (if b then 0x0002 else 0) fun sh => { sh with apol := b }

/-- R134: SET_LATCH 0 is one read and one write of LEN = 0. SET_LATCH 1 writes LEN = 0, then LEN = 1 with a second read and
write, each read clearing flags as R60 and R61 say. It ends at its first failed transaction, whichever of the four it is
(`ok` are the draws of those before it): LEN and the shadow are as the writes before it left them, and a failed write
leaves LEN as it was or as it would have. -/
def Obligations.SetLatchPassesThroughCleared : Prop :=
  (FieldSetter (.setLatch false) .mask 0x0001 0 fun sh => { sh with latch := false }) ∧
    (∀ (s : State) (d1 d2 d3 d4 : Draw) (rest : List Draw), s.dev.legal → s.fsm = .idle →
      s.env = d1 :: d2 :: d3 :: d4 :: rest →
      d1.fails = false → d2.fails = false → d3.fails = false → d4.fails = false →
        ∃ t a b, exec (.setLatch true) s = .next t ∧ t.resp = .done .none ∧ t.sh = { s.sh with latch := true } ∧
          t.dev.stored .mask = s.dev.stored .mask ||| 0x0001 ∧ frame s t [.mask] ∧ t.env = rest ∧
          t.trace = s.trace ++ [.read 6 a, .write 6 (a &&& 0xFFFE), .read 6 b, .write 6 (b ||| 0x0001)] ∧
          lenOf b = false ∧
          (flagsQuiet d1 → flagsQuiet d2 → flagsQuiet d3 → flagsQuiet d4 →
            a = s.dev.mask ∧ cvrfOf t.dev.mask = false ∧ ovfOf t.dev.mask = ovfOf s.dev.mask ∧
              affOf t.dev.mask = d3.affAfter)) ∧
    ∀ (s : State) (ok : List Draw) (d : Draw) (rest : List Draw), s.dev.legal → s.fsm = .idle →
      s.env = ok ++ d :: rest → ok.length < 4 → (∀ x ∈ ok, x.fails = false) → d.fails = true →
        ∃ t, exec (.setLatch true) s = .next t ∧ t.resp = .failed (.transport 6 (decide (ok.length % 2 = 1))) ∧
          t.sh = { s.sh with latch := if 2 ≤ ok.length then false else s.sh.latch } ∧
          frame s t [.mask] ∧ t.env = rest ∧ t.trace.length = s.trace.length + ok.length + 1 ∧
          (t.dev.stored .mask = (if 2 ≤ ok.length then s.dev.stored .mask &&& 0xFFFE else s.dev.stored .mask) ∨
            ok.length = 1 ∧ t.dev.stored .mask = s.dev.stored .mask &&& 0xFFFE ∨
            ok.length = 3 ∧ t.dev.stored .mask = s.dev.stored .mask ||| 0x0001) ∧
          ((∀ x ∈ ok, flagsQuiet x) → flagsQuiet d → ovfOf t.dev.mask = ovfOf s.dev.mask ∧
            (cvrfOf t.dev.mask = false ∨ ok = [] ∧ t.dev.mask = s.dev.mask))

/-- R135: READ_FLAG answers bit 4, 3 or 2 of the word read, and the read clears flags as R60 and R61 say. -/
def Obligations.ReadFlagAnswersOneBit : Prop :=
  ∀ (s : State) (d : Draw) (rest : List Draw) (sel : BitVec 8), s.fsm = .idle → s.env = d :: rest → sel.toNat ≤ 2 →
    (d.fails = false →
      ∃ t w, exec (.readFlag sel) s = .next t ∧ t.trace = s.trace ++ [.read 6 w] ∧
        t.resp = .done (.bit (if sel = 0 then w.getLsbD 4 else if sel = 1 then w.getLsbD 3 else w.getLsbD 2)) ∧
        t.sh = s.sh ∧ t.env = rest ∧ frame s t [] ∧ flagsAfterRead w t.dev.mask d ∧ (flagsQuiet d → w = s.dev.mask)) ∧
    (d.fails = true →
      ∃ t, exec (.readFlag sel) s = .next t ∧ t.resp = .failed (.transport 6 false) ∧ t.sh = s.sh ∧ frame s t [] ∧
        t.trace = s.trace ++ [.readFailed 6] ∧ t.env = rest ∧
        (flagsQuiet d → flagsOldOrRead s.dev.mask t.dev.mask d))

/-! ### The converter and the alert limit -/

/-- R161 to R163: the forward conversions, with nothing else changed. That `now` stands still meanwhile is the model's
reading (log 18). -/
def Obligations.ForwardConversionsAreLinear : Prop :=
  ∀ (s : State) (raw : BitVec 16),
    exec (.raw2v raw) s = .next { s with
      resp := .done (.quantity ((raw.toNat : Rat) * (1 / 800) / divider s.session + s.session.vDiode)) } ∧
    exec (.raw2i raw) s = .next { s with resp := .done (.quantity ((raw.toInt : Rat) * (1 / 800))) } ∧
    exec (.raw2p raw) s = .next { s with
      resp := .done (.quantity ((raw.toNat : Rat) * (1 / 100) / divider s.session)) }

/-- R12: round_int gives a nearest integer, and at an exact half the even one or the one farther from zero. -/
def Obligations.RoundIntIsNearest : Prop :=
  ∀ (tie : RoundTie) (q : Rat),
    |q - (roundInt tie q : Rat)| ≤ 1 / 2 ∧
    (|q - (roundInt tie q : Rat)| = 1 / 2 →
      match tie with
      | .halfEven => roundInt tie q % 2 = 0
      | .halfAway => |q| < |(roundInt tie q : Rat)|)

/-- R164, R166, R167, R168: the inverse conversions answer the nearest count and its value, or RangeError. -/
def Obligations.InverseConversionsAnswerCountOrRangeError : Prop :=
  (InverseConversion .v2raw (fun s => (s.opq - s.session.vDiode) * divider s.session * 800)
    fun x n => (n.toNat : Rat) * (1 / 800) / divider x + x.vDiode) ∧
  (InverseConversion .i2raw (fun s => s.opq * 800) fun _ n => (n.toInt : Rat) * (1 / 800)) ∧
  InverseConversion .p2raw (fun s => s.opq * divider s.session * 100)
    fun x n => (n.toNat : Rat) * (1 / 100) / divider x

/-- R169: what V2RAW answers is the nearest point of the grid anchored at V_DIODE, and so within half a step of what it was
given, and a value that stands on the grid is answered by its own count; the same for P2RAW, and for I2RAW below 40.96 A,
with a grid anchored at 0 (for `now`: log 18). -/
def Obligations.QuantizationLaw : Prop :=
  (∀ (s t : State) (n : Word) (y : Rat), exec .v2raw s = .next t → t.resp = .done (.count n y) →
    y = onGrid s.session s.session.vDiode (1 / 800 / divider s.session) s.opq ∧
      |y - s.opq| ≤ 1 / 800 / divider s.session / 2) ∧
  (∀ (s t : State) (n : Word) (y : Rat), exec .p2raw s = .next t → t.resp = .done (.count n y) →
    y = onGrid s.session 0 (1 / 100 / divider s.session) s.opq ∧ |y - s.opq| ≤ 1 / 100 / divider s.session / 2) ∧
  (∀ (s t : State) (n : Word) (y : Rat), exec .i2raw s = .next t → t.resp = .done (.count n y) → n.toNat < 32768 →
    y = onGrid s.session 0 (1 / 800) s.opq ∧ |y - s.opq| ≤ 1 / 800 / 2) ∧
  ∀ (s : State) (n : Word),
    (s.opq = (n.toNat : Rat) * (1 / 800) / divider s.session + s.session.vDiode →
      exec .v2raw s = .next { s with resp := .done (.count n s.opq) }) ∧
    (s.opq = (n.toNat : Rat) * (1 / 100) / divider s.session →
      exec .p2raw s = .next { s with resp := .done (.count n s.opq) }) ∧
    (n.toNat < 32768 → s.opq = (n.toNat : Rat) * (1 / 800) →
      exec .i2raw s = .next { s with resp := .done (.count n s.opq) })

/-- R170 to R172: one read of the register and its forward conversion. -/
def Obligations.MeasurementReadsConvertTheRegister : Prop :=
  (MeasurementRead .readV .busVoltage Draw.busVoltage
    fun x n => (n.toNat : Rat) * (1 / 800) / divider x + x.vDiode) ∧
  (MeasurementRead .readI .current Draw.current fun _ n => (n.toInt : Rat) * (1 / 800)) ∧
  MeasurementRead .readP .power Draw.power fun x n => (n.toNat : Rat) * (1 / 100) / divider x

/-- R173: the unit of the alert limit by the active functional source. -/
def Obligations.UnitFollowsTheFunctionalSource : Prop :=
  ∀ m : BitVec 6, oneFunctional m = true →
    (unitOf m = some .current ↔ m.getLsbD 5 = true ∨ m.getLsbD 4 = true) ∧
    (unitOf m = some .voltage ↔ m.getLsbD 3 = true ∨ m.getLsbD 2 = true) ∧
    (unitOf m = some .power ↔ m.getLsbD 1 = true) ∧
    (unitOf m = none ↔ m = 0b000000 ∨ m = 0b000001)

/-- R174: SET_ALERT_LIMIT stores the nearest count in the unit of the active source with one plain write; before any
functional source it answers PreconditionError, out of range RangeError, and in both cases nothing else changes (for
`now`: log 18). -/
def Obligations.SetAlertLimitStoresTheCount : Prop :=
  ∀ (s : State), s.fsm = .idle →
    (unitOf s.sh.amask = none → exec .setAlertLimit s = .next { s with resp := .failed .precondition }) ∧
    ∀ (u : LimitUnit) (q : Rat), unitOf s.sh.amask = some u →
      q = (match u with
        | .current => s.opq * 800
        | .voltage => (s.opq - s.session.vDiode) * divider s.session * 800
        | .power => s.opq * divider s.session * 100) →
      (∀ n, outOfRange s.session q n → exec .setAlertLimit s = .next { s with resp := .failed (.range n) }) ∧
      ∀ (n : Word) (d : Draw) (rest : List Draw), countOf s.session q n → s.env = d :: rest →
        (d.fails = false →
          ∃ t, exec .setAlertLimit s = .next t ∧ t.resp = .done .none ∧ t.dev.limit = n ∧ t.sh = s.sh ∧
            t.trace = s.trace ++ [.write 7 n] ∧ t.env = rest ∧ frame s t [.limit] ∧
            (flagsQuiet d → t.dev.mask = s.dev.mask)) ∧
        (d.fails = true →
          ∃ t, exec .setAlertLimit s = .next t ∧ t.resp = .failed (.transport 7 true) ∧ t.sh = s.sh ∧
            (t.dev.limit = s.dev.limit ∨ t.dev.limit = n) ∧ frame s t [.limit] ∧ t.env = rest ∧
            (flagsQuiet d → t.dev.mask = s.dev.mask))

/-- R175: GET_ALERT_LIMIT reads the live register and converts it in the unit of the active source; before any
functional source it answers PreconditionError and nothing else changes (for `now`: log 18). -/
def Obligations.GetAlertLimitConvertsTheLiveRegister : Prop :=
  ∀ (s : State), s.fsm = .idle →
    (unitOf s.sh.amask = none → exec .getAlertLimit s = .next { s with resp := .failed .precondition }) ∧
    ∀ (u : LimitUnit) (d : Draw) (rest : List Draw), unitOf s.sh.amask = some u → s.env = d :: rest →
      (d.fails = false →
        ∃ t, exec .getAlertLimit s = .next t ∧ t.sh = s.sh ∧ t.env = rest ∧ frame s t [] ∧
          t.trace = s.trace ++ [.read 7 s.dev.limit] ∧ (flagsQuiet d → t.dev.mask = s.dev.mask) ∧
          t.resp = .done (.quantity (match u with
            | .current => (s.dev.limit.toInt : Rat) * (1 / 800)
            | .voltage => (s.dev.limit.toNat : Rat) * (1 / 800) / divider s.session + s.session.vDiode
            | .power => (s.dev.limit.toNat : Rat) * (1 / 100) / divider s.session))) ∧
      (d.fails = true →
        ∃ t, exec .getAlertLimit s = .next t ∧ t.resp = .failed (.transport 7 false) ∧ t.sh = s.sh ∧ frame s t [] ∧
          t.env = rest ∧ (flagsQuiet d → t.dev.mask = s.dev.mask))

/-! ### The synchronizer -/

/-- R192, R190: AUTO_TMO is the word 0x30000000 and answers the automatic timeout, computed from the shadow; nothing
else changes. That `now` stands still meanwhile is the model's reading (log 18). -/
def Obligations.AutoTmoAnswersTheFormula : Prop :=
  encode .autoTmo = 0x30000000 ∧ ∀ s : State, exec .autoTmo s = .next { s with resp := .done (.micros
    (max 1000 (2 * s.sh.avg * (s.sh.vbusct * (if s.sh.mv then 1 else 0) + s.sh.ishct * (if s.sh.mc then 1 else 0))))) }

/-- R190: the automatic timeout of a legal shadow lies between 1000 and 33767424 microseconds, and is twice the device's
conversion latency (R191) or the floor. -/
def Obligations.AutomaticTimeoutBounds : Prop :=
  ∀ sh : Shadow, sh.legal →
    1000 ≤ autoTimeout sh ∧ autoTimeout sh ≤ 33767424 ∧ autoTimeout sh = max 1000 (2 * convLatency sh)

/-- R197, R195, R196: the small steps of an armed WAIT_EDGE give what the trace form says: with the first falling edge `k`
microseconds after arming and `T` the timeout, success at the edge if `k < T`, failure at the deadline if `k > T` or there
is no edge, and either at the deadline if `k = T`. That the wait registers still show the arming and the timeout after the
answer is the model's choice (log 7). -/
def Obligations.WaitEdgeFollowsTheTrace : Prop :=
  ∀ (s : State) (a : Bool) (g d : Draw) (rest : List Draw) (T : Nat), s.session.alertPin = true → s.fsm = .idle →
    s.env = g :: d :: rest →
    T = (if a then max 1000 (2 * s.sh.avg * (s.sh.vbusct * s.sh.mv.toNat + s.sh.ishct * s.sh.mc.toNat)) else s.opt) →
      ∃ t, exec (.waitEdge a) s = .next t ∧ t.sh = s.sh ∧ t.dev = s.dev ∧ t.trace = s.trace ∧ t.fsm = .idle ∧ t.p = s.p ∧
        sameSession s t ∧ t.env = rest ∧ t.w.tArm = s.pause.now ∧ t.w.tmo = T ∧
        match firstFall s.pause.alertN 0 d.events with
        | some k =>
          if k < T then t.resp = .done (.bit true) ∧ t.now = s.pause.now + k
          else if k = T then t.resp = .done (.bit d.tie) ∧ t.now = s.pause.now + T
          else t.resp = .done (.bit false) ∧ t.now = s.pause.now + T
        | none => t.resp = .done (.bit false) ∧ t.now = s.pause.now + T

/-- R198(a), (d), R197, R194: whatever the environment does, a WAIT_EDGE that is armed ends no later than its timeout after
arming, answers a bit, performs no transaction and leaves the shadow and the device as they were. The timeout is the
automatic one or OPT. The statement reads arming and timeout from the wait registers after the answer; that they still stand
there is the model's choice (log 7). -/
def Obligations.WaitEdgeEndsByItsDeadline : Prop :=
  ∀ (s : State) (a : Bool), s.session.alertPin = true →
    ∃ t b, exec (.waitEdge a) s = .next t ∧ t.resp = .done (.bit b) ∧ t.now ≤ t.w.tArm + t.w.tmo ∧ s.now ≤ t.w.tArm ∧
      t.w.tmo = (if a then max 1000 (2 * s.sh.avg * (s.sh.vbusct * s.sh.mv.toNat + s.sh.ishct * s.sh.mc.toNat)) else s.opt) ∧
      t.fsm = .idle ∧ t.sh = s.sh ∧ t.dev = s.dev ∧ t.trace = s.trace

/-- R197, R205, R242(c): without an alert pin WAIT_EDGE and WAIT_PEAK answer PreconditionError and change nothing. That
`now` stands still meanwhile is the model's reading (log 18). -/
def Obligations.EdgeWaitsNeedTheAlertPin : Prop :=
  ∀ (s : State) (a : Bool), s.session.alertPin = false → s.fsm = .idle →
    exec (.waitEdge a) s = .next { s with resp := .failed .precondition } ∧
    exec (.waitPeak a) s = .next { s with resp := .failed .precondition }

/-- R200: WAIT_FLAG polls until a read shows CVRF, or a read after the deadline does not. A CVRF that was set before the
call signals at the first read. With none pending, the first `n` polls at most show nothing before the timeout `T`
(`quietDraw` is a draw in which nothing happens); then the device sets CVRF and the wait succeeds, or `T` has elapsed and
it fails. Each poll is a read of Mask/Enable, and the read words show CVRF as said. That the polls stand exactly one
interval apart, and so which poll is the first after `T`, is the model's choice of an exact sleep (log 16). -/
def Obligations.WaitFlagPollsUntilFlagOrDeadline : Prop :=
  ∀ (s : State) (a : Bool) (T n : Nat) (d : Draw) (rest : List Draw), s.fsm = .idle →
    T = (if a then max 1000 (2 * s.sh.avg * (s.sh.vbusct * s.sh.mv.toNat + s.sh.ishct * s.sh.mc.toNat)) else s.opt) →
    (n = 0 ∨ cvrfOf s.dev.mask = false ∧ (n - 1) * s.session.pollInterval < T) →
    s.env = List.replicate n quietDraw ++ d :: rest → d.fails = false → d.events = [] →
      (d.cvrf = some true ∨ cvrfOf s.dev.mask = true ∧ d.cvrf = none →
        ∃ (t : State) (words : List Word), exec (.waitFlag a) s = .next t ∧ t.resp = .done (.bit true) ∧
          cvrfOf t.dev.mask = false ∧ t.now = s.now + n * s.session.pollInterval ∧ t.fsm = .idle ∧ t.sh = s.sh ∧ t.env = rest ∧ t.p = s.p ∧
          sameSession s t ∧ t.trace = s.trace ++ words.map (Txn.read 6) ∧
          words.map cvrfOf = List.replicate n false ++ [true] ∧ ∀ r, t.dev.stored r = s.dev.stored r) ∧
      (d.cvrf = some false ∨ cvrfOf s.dev.mask = false ∧ d.cvrf = none → T ≤ n * s.session.pollInterval →
        ∃ (t : State) (words : List Word), exec (.waitFlag a) s = .next t ∧ t.resp = .done (.bit false) ∧
          cvrfOf t.dev.mask = false ∧ t.now = s.now + n * s.session.pollInterval ∧ t.fsm = .idle ∧ t.sh = s.sh ∧ t.env = rest ∧ t.p = s.p ∧
          sameSession s t ∧ t.trace = s.trace ++ words.map (Txn.read 6) ∧
          words.map cvrfOf = List.replicate (n + 1) false ∧ ∀ r, t.dev.stored r = s.dev.stored r)

/-- R199, R200, R72: a read that fails, the first or one after `n` polls before the timeout `T` that showed nothing, aborts
a WAIT_FLAG; `fsm` is Idle and the error is TransportError at 0x06. Each poll before it is a read of Mask/Enable that shows
no CVRF. That `n` polls with `n - 1` intervals below `T` have not timed out rests on the model's choice of an exact sleep
(log 16). -/
def Obligations.WaitFlagAbortsOnFailedRead : Prop :=
  ∀ (s : State) (a : Bool) (T n : Nat) (d : Draw) (rest : List Draw),
    T = (if a then max 1000 (2 * s.sh.avg * (s.sh.vbusct * s.sh.mv.toNat + s.sh.ishct * s.sh.mc.toNat)) else s.opt) →
    (n = 0 ∨ cvrfOf s.dev.mask = false ∧ (n - 1) * s.session.pollInterval < T) →
    s.env = List.replicate n quietDraw ++ d :: rest → d.fails = true →
      ∃ (t : State) (words : List Word), exec (.waitFlag a) s = .next t ∧ t.resp = .failed (.transport 6 false) ∧
        t.fsm = .idle ∧ t.sh = s.sh ∧ t.env = rest ∧ t.p = s.p ∧ sameSession s t ∧ s.now + n * s.session.pollInterval ≤ t.now ∧
        t.trace = s.trace ++ words.map (Txn.read 6) ++ [.readFailed 6] ∧ words.map cvrfOf = List.replicate n false ∧
        ∀ r, t.dev.stored r = s.dev.stored r

/-- R201: the peak test. -/
def Obligations.PeakTestIsStrict : Prop :=
  ∀ (win : List Rat) (thr : Rat),
    isPeak win thr = true ↔
      ∃ a b c, win = [a, b, c] ∧ c - b < 0 ∧ b - a > 0 ∧ a > thr ∧ b > thr ∧ c > thr

/-- R201 to R205, R291: a WAIT_PEAK from a legal state with an alert pin in which shadow and device agree. If none of its
transactions failed, they are the override, in each pass of the loop one read of Mask/Enable and at most one sample, and
the restore; no three samples in a row but the last three are a peak, and it answers success if those are one and else
TimeoutError, no sooner than its timeout after it began; the caller's settings are back in the shadow and in the device. If
one failed, that was its last transaction: nothing is restored. It answers TransportError, the shadow's settings are those
of the last words written to Configuration and Mask/Enable, and each register holds its last word, or that of a failed
write of it. -/
def Obligations.WaitPeakRestoresTheConfiguration : Prop :=
  ∀ (s t : State) (a : Bool), s.legal → s.agrees → s.session.alertPin = true → s.trace = [] →
    exec (.waitPeak a) s = .next t →
      ((∀ x ∈ t.trace, x.failed = false) →
        (∃ (m m' : Word) (passes : List (Word × Option Word)) (restore : List Txn),
          t.trace = overrideTrace s.dev.config m ++ passes.flatMap passTrace ++ restore ∧ isRestoreTrace s.sh m' restore ∧
            storedMask m = storedMask s.dev.mask ∧ storedMask m' = (storedMask s.dev.mask &&& 0x0003) ||| 0x0400 ∧
            t.resp = (if endsInPeak s.session s.opq (passes.filterMap Prod.snd) then .done .success else .failed .timeout) ∧
            (t.resp = .failed .timeout → s.now + (if a then 100000 else s.opt) ≤ t.now) ∧
            ∀ earlier later, earlier ++ later = passes.filterMap Prod.snd → later ≠ [] →
              endsInPeak s.session s.opq earlier = false) ∧
          t.sh = s.sh ∧ (∀ r, t.dev.stored r = s.dev.stored r) ∧ t.fsm = .idle) ∧
      ((∃ x ∈ t.trace, x.failed = true) →
        ∃ before x, t.trace = before ++ [x] ∧ x.failed = true ∧ (∀ y ∈ before, y.failed = false) ∧
          t.resp = .failed x.transportError ∧ t.fsm = .idle ∧
          cfgUnpack (lastWrite 0x00 s.dev.config t.trace) =
            (t.sh.avg, t.sh.vbusct, t.sh.ishct, t.sh.cont, t.sh.mv, t.sh.mc) ∧
          (lastWrite 0x06 s.dev.mask t.trace).extractLsb' 10 6 = t.sh.amask ∧
          t.sh.apol = s.sh.apol ∧ t.sh.latch = s.sh.latch ∧
          ∀ r, t.dev.stored r = storedAs r (lastWrite r.addr (s.dev.stored r) t.trace) ∨
            ∃ w, x = .writeFailed r.addr w ∧ t.dev.stored r = storedAs r w)

/-- R202 to R206: three samples that rise and fall, all above the threshold, each after an edge within the inner wait and
within the timeout, with `e`, `f` and `g` passes before them whose inner wait runs out after 1000 microseconds with no
sample: WAIT_PEAK answers success after the third sample, with the configuration restored. Its bus trace is the override,
one read of Mask/Enable for each pass with the sample after it if there is one, and the restore. -/
def Obligations.WaitPeakFindsThePeak : Prop :=
  ∀ (s : State) (a : Bool) (x y z : Word) (j k l e f g : Nat) (rest : List Draw), s.legal → s.session.alertPin = true →
    j < 1000 → k < 1000 → l < 1000 → j + k + l + 1000 * (e + f + g) < (if a then 100000 else s.opt) →
    s.env = List.replicate 14 quietDraw ++ (silentPasses e ++ peakPass j x) ++ (silentPasses f ++ peakPass k y) ++
      (silentPasses g ++ peakPass l z) ++ List.replicate 14 quietDraw ++ rest →
    x.toNat < y.toNat → z.toNat < y.toNat →
    s.opq < (x.toNat : Rat) * (1 / 800) / divider s.session + s.session.vDiode →
    s.opq < (z.toNat : Rat) * (1 / 800) / divider s.session + s.session.vDiode →
      ∃ t m restore, exec (.waitPeak a) s = .next t ∧ t.resp = .done .success ∧ t.sh = s.sh ∧
        t.now = s.now + j + k + l + 1000 * (e + f + g) ∧ t.env = rest ∧ t.fsm = .idle ∧ sameSession s t ∧
        m = (s.dev.mask &&& 0x0007) ||| 0x0400 ∧ isRestoreTrace s.sh m restore ∧
        t.trace = s.trace ++ overrideTrace s.dev.config s.dev.mask ++
          (List.replicate e (.read 6 m) ++ [.read 6 m, .read 2 x]) ++
          (List.replicate f (.read 6 m) ++ [.read 6 m, .read 2 y]) ++
          (List.replicate g (.read 6 m) ++ [.read 6 m, .read 2 z]) ++ restore ∧
        t.dev.config = cfgPack s.sh.avg s.sh.vbusct s.sh.ishct s.sh.cont s.sh.mv s.sh.mc ∧
        t.dev.mask.extractLsb' 10 6 = s.sh.amask ∧ t.dev.limit = s.dev.limit

/-- R194, R202 to R206: WAIT_PEAK without an edge overrides, restores and answers TimeoutError without sampling: its bus
trace is that of the override (R202), one read of Mask/Enable for each pass of the loop, and that of the restore (R203).
The device ends with the settings of the shadow. The first part is an explicit timeout of 0, with no pass, whatever else the
28 successful draws hold; the second any timeout `T`, explicit or the default, over draws in which nothing happens: a pass
for each 1000 microseconds and one for what is left of them, and the answer at `T` microseconds after the start. -/
def Obligations.WaitPeakWithNoEdgeTimesOut : Prop :=
  (∀ (s : State) (ds rest : List Draw), s.legal → s.session.alertPin = true → s.opt = 0 → ds.length = 28 →
    (∀ d ∈ ds, d.fails = false) → s.env = ds ++ rest →
      ∃ t m m' restore, exec (.waitPeak false) s = .next t ∧ t.resp = .failed .timeout ∧ t.sh = s.sh ∧ t.env = rest ∧
        t.fsm = .idle ∧ sameSession s t ∧ t.trace = s.trace ++ overrideTrace s.dev.config m ++ restore ∧
        isRestoreTrace s.sh m' restore ∧ storedMask m = storedMask s.dev.mask ∧
        storedMask m' = (storedMask s.dev.mask &&& 0x0003) ||| 0x0400 ∧
        t.dev.config = cfgPack s.sh.avg s.sh.vbusct s.sh.ishct s.sh.cont s.sh.mv s.sh.mc ∧
        t.dev.mask.extractLsb' 10 6 = s.sh.amask ∧ t.dev.limit = s.dev.limit) ∧
  ∀ (s : State) (a : Bool) (T n : Nat) (rest : List Draw), s.legal → s.session.alertPin = true →
    T = (if a then 100000 else s.opt) → n = T / 1000 + (if T % 1000 = 0 then 0 else 1) →
    s.env = List.replicate 14 quietDraw ++ silentPasses n ++ List.replicate 14 quietDraw ++ rest →
      ∃ t m restore, exec (.waitPeak a) s = .next t ∧ t.resp = .failed .timeout ∧ t.sh = s.sh ∧ t.now = s.now + T ∧
        t.env = rest ∧ t.fsm = .idle ∧ sameSession s t ∧ m = (s.dev.mask &&& 0x0007) ||| 0x0400 ∧
        isRestoreTrace s.sh m restore ∧
        t.trace = s.trace ++ overrideTrace s.dev.config s.dev.mask ++ List.replicate n (.read 6 m) ++ restore ∧
        t.dev.config = cfgPack s.sh.avg s.sh.vbusct s.sh.ishct s.sh.cont s.sh.mv s.sh.mc ∧
        t.dev.mask.extractLsb' 10 6 = s.sh.amask ∧ t.dev.limit = s.dev.limit

/-! ### System operations -/

/-- R230: RESET writes 0x8000 to Configuration, which resets the device, and then the shadow; if the write fails the shadow
is unchanged and the device is reset or untouched. -/
def Obligations.ResetResetsDeviceAndShadow : Prop :=
  ∀ (s : State) (d : Draw) (rest : List Draw), s.fsm = .idle → s.env = d :: rest →
    (d.fails = false →
      ∃ t, exec .reset s = .next t ∧ t.resp = .done .none ∧ t.dev.config = 0x6127 ∧ t.dev.mask = 0x0000 ∧
        t.dev.limit = 0x0000 ∧
        t.sh = { avg := 1, vbusct := 1100, ishct := 1100, cont := true, mv := true, mc := true, amask := 0b000000,
                 apol := false, latch := false } ∧
        t.trace = s.trace ++ [.write 0 0x8000] ∧ t.env = rest ∧ frame s t [.config, .mask, .limit]) ∧
    (d.fails = true →
      ∃ t, exec .reset s = .next t ∧ t.resp = .failed (.transport 0 true) ∧ t.sh = s.sh ∧
        ((∀ r, t.dev.stored r = s.dev.stored r) ∧ (flagsQuiet d → t.dev.mask = s.dev.mask) ∨
          t.dev.config = 0x6127 ∧ t.dev.mask = 0x0000 ∧ t.dev.limit = 0x0000) ∧ frame s t [.config, .mask, .limit])

/-- R231: RD_REG of a mapped address answers the word the device gives, and only a read of 0x06 has a side effect. -/
def Obligations.RdRegAnswersTheWord : Prop :=
  ∀ (s : State) (d : Draw) (rest : List Draw) (r : DevReg), s.fsm = .idle → s.env = d :: rest →
    (d.fails = false →
      ∃ t w, exec (.rdReg r.addr) s = .next t ∧ t.resp = .done (.word w) ∧ t.trace = s.trace ++ [.read r.addr w] ∧
        t.sh = s.sh ∧ t.env = rest ∧ frame s t [] ∧
        (r = .config ∨ r = .limit ∨ r = .manufacturerId ∨ r = .dieId → w = s.dev.get r) ∧
        (r = .current → w = d.current) ∧ (r = .busVoltage → w = d.busVoltage) ∧ (r = .power → w = d.power) ∧
        (flagsQuiet d → if r = .mask then w = s.dev.mask ∧ flagsAfterRead w t.dev.mask d else t.dev.mask = s.dev.mask)) ∧
    (d.fails = true →
      ∃ t, exec (.rdReg r.addr) s = .next t ∧ t.resp = .failed (.transport r.addr false) ∧ t.sh = s.sh ∧ frame s t [] ∧
        t.trace = s.trace ++ [.readFailed r.addr] ∧ t.env = rest ∧
        (flagsQuiet d → if r = .mask then flagsOldOrRead s.dev.mask t.dev.mask d else t.dev.mask = s.dev.mask))

/-- R232: CHECK_ID answers whether both identity words are the expected ones, and the revision. -/
def Obligations.CheckIdComparesTheIdentity : Prop :=
  ∀ (s : State) (d1 d2 : Draw) (rest : List Draw), s.fsm = .idle → s.env = d1 :: d2 :: rest →
    (d1.fails = false → d2.fails = false →
      ∃ t ok, exec .checkId s = .next t ∧ t.resp = .done (.ident ok (s.dev.dieId.extractLsb' 0 4)) ∧
        (ok = true ↔ s.dev.manufacturerId = 0x5449 ∧ s.dev.dieId.extractLsb' 4 12 = 0x227) ∧ t.sh = s.sh ∧
        t.env = rest ∧ frame s t [] ∧
        t.trace = s.trace ++ [.read 0xFE s.dev.manufacturerId, .read 0xFF s.dev.dieId] ∧
        (flagsQuiet d1 → flagsQuiet d2 → t.dev.mask = s.dev.mask)) ∧
    (d1.fails = true →
      ∃ t, exec .checkId s = .next t ∧ t.resp = .failed (.transport 0xFE false) ∧ t.sh = s.sh ∧
        t.trace = s.trace ++ [.readFailed 0xFE] ∧ t.env = d2 :: rest ∧ frame s t [] ∧
        (flagsQuiet d1 → t.dev.mask = s.dev.mask)) ∧
    (d1.fails = false → d2.fails = true →
      ∃ t, exec .checkId s = .next t ∧ t.resp = .failed (.transport 0xFF false) ∧ t.sh = s.sh ∧
        t.trace = s.trace ++ [.read 0xFE s.dev.manufacturerId, .readFailed 0xFF] ∧ t.env = rest ∧ frame s t [] ∧
        (flagsQuiet d1 → flagsQuiet d2 → t.dev.mask = s.dev.mask))
end

