-- ==== Sys2Proof/Laws/State.lean ====
section
/-! SUPPORT. One lemma per field per update of the state, so that no later proof unfolds a record update. -/

namespace Sys2Proof.Machine

variable (s : State)

@[simp] theorem State.withShadow_session (x : Shadow) : (s.withShadow x).session = s.session := rfl
@[simp] theorem State.withShadow_sh (x : Shadow) : (s.withShadow x).sh = x := rfl
@[simp] theorem State.withShadow_fsm (x : Shadow) : (s.withShadow x).fsm = s.fsm := rfl
@[simp] theorem State.withShadow_w (x : Shadow) : (s.withShadow x).w = s.w := rfl
@[simp] theorem State.withShadow_p (x : Shadow) : (s.withShadow x).p = s.p := rfl
@[simp] theorem State.withShadow_dev (x : Shadow) : (s.withShadow x).dev = s.dev := rfl
@[simp] theorem State.withShadow_alertN (x : Shadow) : (s.withShadow x).alertN = s.alertN := rfl
@[simp] theorem State.withShadow_now (x : Shadow) : (s.withShadow x).now = s.now := rfl
@[simp] theorem State.withShadow_opt (x : Shadow) : (s.withShadow x).opt = s.opt := rfl
@[simp] theorem State.withShadow_opq (x : Shadow) : (s.withShadow x).opq = s.opq := rfl
@[simp] theorem State.withShadow_resp (x : Shadow) : (s.withShadow x).resp = s.resp := rfl
@[simp] theorem State.withShadow_trace (x : Shadow) : (s.withShadow x).trace = s.trace := rfl
@[simp] theorem State.withShadow_host (x : Shadow) : (s.withShadow x).host = s.host := rfl
@[simp] theorem State.withShadow_env (x : Shadow) : (s.withShadow x).env = s.env := rfl
@[simp] theorem State.withShadow_tick (x : Shadow) : (s.withShadow x).tick = s.tick := rfl

@[simp] theorem State.withFsm_session (x : Fsm) : (s.withFsm x).session = s.session := rfl
@[simp] theorem State.withFsm_sh (x : Fsm) : (s.withFsm x).sh = s.sh := rfl
@[simp] theorem State.withFsm_fsm (x : Fsm) : (s.withFsm x).fsm = x := rfl
@[simp] theorem State.withFsm_w (x : Fsm) : (s.withFsm x).w = s.w := rfl
@[simp] theorem State.withFsm_p (x : Fsm) : (s.withFsm x).p = s.p := rfl
@[simp] theorem State.withFsm_dev (x : Fsm) : (s.withFsm x).dev = s.dev := rfl
@[simp] theorem State.withFsm_alertN (x : Fsm) : (s.withFsm x).alertN = s.alertN := rfl
@[simp] theorem State.withFsm_now (x : Fsm) : (s.withFsm x).now = s.now := rfl
@[simp] theorem State.withFsm_opt (x : Fsm) : (s.withFsm x).opt = s.opt := rfl
@[simp] theorem State.withFsm_opq (x : Fsm) : (s.withFsm x).opq = s.opq := rfl
@[simp] theorem State.withFsm_resp (x : Fsm) : (s.withFsm x).resp = s.resp := rfl
@[simp] theorem State.withFsm_trace (x : Fsm) : (s.withFsm x).trace = s.trace := rfl
@[simp] theorem State.withFsm_host (x : Fsm) : (s.withFsm x).host = s.host := rfl
@[simp] theorem State.withFsm_env (x : Fsm) : (s.withFsm x).env = s.env := rfl
@[simp] theorem State.withFsm_tick (x : Fsm) : (s.withFsm x).tick = s.tick := rfl

@[simp] theorem State.withWait_session (x : WaitRegs) : (s.withWait x).session = s.session := rfl
@[simp] theorem State.withWait_sh (x : WaitRegs) : (s.withWait x).sh = s.sh := rfl
@[simp] theorem State.withWait_fsm (x : WaitRegs) : (s.withWait x).fsm = s.fsm := rfl
@[simp] theorem State.withWait_w (x : WaitRegs) : (s.withWait x).w = x := rfl
@[simp] theorem State.withWait_p (x : WaitRegs) : (s.withWait x).p = s.p := rfl
@[simp] theorem State.withWait_dev (x : WaitRegs) : (s.withWait x).dev = s.dev := rfl
@[simp] theorem State.withWait_alertN (x : WaitRegs) : (s.withWait x).alertN = s.alertN := rfl
@[simp] theorem State.withWait_now (x : WaitRegs) : (s.withWait x).now = s.now := rfl
@[simp] theorem State.withWait_opt (x : WaitRegs) : (s.withWait x).opt = s.opt := rfl
@[simp] theorem State.withWait_opq (x : WaitRegs) : (s.withWait x).opq = s.opq := rfl
@[simp] theorem State.withWait_resp (x : WaitRegs) : (s.withWait x).resp = s.resp := rfl
@[simp] theorem State.withWait_trace (x : WaitRegs) : (s.withWait x).trace = s.trace := rfl
@[simp] theorem State.withWait_host (x : WaitRegs) : (s.withWait x).host = s.host := rfl
@[simp] theorem State.withWait_env (x : WaitRegs) : (s.withWait x).env = s.env := rfl
@[simp] theorem State.withWait_tick (x : WaitRegs) : (s.withWait x).tick = s.tick := rfl

@[simp] theorem State.withPeak_session (x : PeakRegs) : (s.withPeak x).session = s.session := rfl
@[simp] theorem State.withPeak_sh (x : PeakRegs) : (s.withPeak x).sh = s.sh := rfl
@[simp] theorem State.withPeak_fsm (x : PeakRegs) : (s.withPeak x).fsm = s.fsm := rfl
@[simp] theorem State.withPeak_w (x : PeakRegs) : (s.withPeak x).w = s.w := rfl
@[simp] theorem State.withPeak_p (x : PeakRegs) : (s.withPeak x).p = x := rfl
@[simp] theorem State.withPeak_dev (x : PeakRegs) : (s.withPeak x).dev = s.dev := rfl
@[simp] theorem State.withPeak_alertN (x : PeakRegs) : (s.withPeak x).alertN = s.alertN := rfl
@[simp] theorem State.withPeak_now (x : PeakRegs) : (s.withPeak x).now = s.now := rfl
@[simp] theorem State.withPeak_opt (x : PeakRegs) : (s.withPeak x).opt = s.opt := rfl
@[simp] theorem State.withPeak_opq (x : PeakRegs) : (s.withPeak x).opq = s.opq := rfl
@[simp] theorem State.withPeak_resp (x : PeakRegs) : (s.withPeak x).resp = s.resp := rfl
@[simp] theorem State.withPeak_trace (x : PeakRegs) : (s.withPeak x).trace = s.trace := rfl
@[simp] theorem State.withPeak_host (x : PeakRegs) : (s.withPeak x).host = s.host := rfl
@[simp] theorem State.withPeak_env (x : PeakRegs) : (s.withPeak x).env = s.env := rfl
@[simp] theorem State.withPeak_tick (x : PeakRegs) : (s.withPeak x).tick = s.tick := rfl

@[simp] theorem State.withDevice_session (x : Device) : (s.withDevice x).session = s.session := rfl
@[simp] theorem State.withDevice_sh (x : Device) : (s.withDevice x).sh = s.sh := rfl
@[simp] theorem State.withDevice_fsm (x : Device) : (s.withDevice x).fsm = s.fsm := rfl
@[simp] theorem State.withDevice_w (x : Device) : (s.withDevice x).w = s.w := rfl
@[simp] theorem State.withDevice_p (x : Device) : (s.withDevice x).p = s.p := rfl
@[simp] theorem State.withDevice_dev (x : Device) : (s.withDevice x).dev = x := rfl
@[simp] theorem State.withDevice_alertN (x : Device) : (s.withDevice x).alertN = s.alertN := rfl
@[simp] theorem State.withDevice_now (x : Device) : (s.withDevice x).now = s.now := rfl
@[simp] theorem State.withDevice_opt (x : Device) : (s.withDevice x).opt = s.opt := rfl
@[simp] theorem State.withDevice_opq (x : Device) : (s.withDevice x).opq = s.opq := rfl
@[simp] theorem State.withDevice_resp (x : Device) : (s.withDevice x).resp = s.resp := rfl
@[simp] theorem State.withDevice_trace (x : Device) : (s.withDevice x).trace = s.trace := rfl
@[simp] theorem State.withDevice_host (x : Device) : (s.withDevice x).host = s.host := rfl
@[simp] theorem State.withDevice_env (x : Device) : (s.withDevice x).env = s.env := rfl
@[simp] theorem State.withDevice_tick (x : Device) : (s.withDevice x).tick = s.tick := rfl

@[simp] theorem State.withAlert_session (x : Bool) : (s.withAlert x).session = s.session := rfl
@[simp] theorem State.withAlert_sh (x : Bool) : (s.withAlert x).sh = s.sh := rfl
@[simp] theorem State.withAlert_fsm (x : Bool) : (s.withAlert x).fsm = s.fsm := rfl
@[simp] theorem State.withAlert_w (x : Bool) : (s.withAlert x).w = s.w := rfl
@[simp] theorem State.withAlert_p (x : Bool) : (s.withAlert x).p = s.p := rfl
@[simp] theorem State.withAlert_dev (x : Bool) : (s.withAlert x).dev = s.dev := rfl
@[simp] theorem State.withAlert_alertN (x : Bool) : (s.withAlert x).alertN = x := rfl
@[simp] theorem State.withAlert_now (x : Bool) : (s.withAlert x).now = s.now := rfl
@[simp] theorem State.withAlert_opt (x : Bool) : (s.withAlert x).opt = s.opt := rfl
@[simp] theorem State.withAlert_opq (x : Bool) : (s.withAlert x).opq = s.opq := rfl
@[simp] theorem State.withAlert_resp (x : Bool) : (s.withAlert x).resp = s.resp := rfl
@[simp] theorem State.withAlert_trace (x : Bool) : (s.withAlert x).trace = s.trace := rfl
@[simp] theorem State.withAlert_host (x : Bool) : (s.withAlert x).host = s.host := rfl
@[simp] theorem State.withAlert_env (x : Bool) : (s.withAlert x).env = s.env := rfl
@[simp] theorem State.withAlert_tick (x : Bool) : (s.withAlert x).tick = s.tick := rfl

@[simp] theorem State.withNow_session (x : Nat) : (s.withNow x).session = s.session := rfl
@[simp] theorem State.withNow_sh (x : Nat) : (s.withNow x).sh = s.sh := rfl
@[simp] theorem State.withNow_fsm (x : Nat) : (s.withNow x).fsm = s.fsm := rfl
@[simp] theorem State.withNow_w (x : Nat) : (s.withNow x).w = s.w := rfl
@[simp] theorem State.withNow_p (x : Nat) : (s.withNow x).p = s.p := rfl
@[simp] theorem State.withNow_dev (x : Nat) : (s.withNow x).dev = s.dev := rfl
@[simp] theorem State.withNow_alertN (x : Nat) : (s.withNow x).alertN = s.alertN := rfl
@[simp] theorem State.withNow_now (x : Nat) : (s.withNow x).now = x := rfl
@[simp] theorem State.withNow_opt (x : Nat) : (s.withNow x).opt = s.opt := rfl
@[simp] theorem State.withNow_opq (x : Nat) : (s.withNow x).opq = s.opq := rfl
@[simp] theorem State.withNow_resp (x : Nat) : (s.withNow x).resp = s.resp := rfl
@[simp] theorem State.withNow_trace (x : Nat) : (s.withNow x).trace = s.trace := rfl
@[simp] theorem State.withNow_host (x : Nat) : (s.withNow x).host = s.host := rfl
@[simp] theorem State.withNow_env (x : Nat) : (s.withNow x).env = s.env := rfl
@[simp] theorem State.withNow_tick (x : Nat) : (s.withNow x).tick = s.tick := rfl

@[simp] theorem State.withResponse_session (x : Response) : (s.withResponse x).session = s.session := rfl
@[simp] theorem State.withResponse_sh (x : Response) : (s.withResponse x).sh = s.sh := rfl
@[simp] theorem State.withResponse_fsm (x : Response) : (s.withResponse x).fsm = s.fsm := rfl
@[simp] theorem State.withResponse_w (x : Response) : (s.withResponse x).w = s.w := rfl
@[simp] theorem State.withResponse_p (x : Response) : (s.withResponse x).p = s.p := rfl
@[simp] theorem State.withResponse_dev (x : Response) : (s.withResponse x).dev = s.dev := rfl
@[simp] theorem State.withResponse_alertN (x : Response) : (s.withResponse x).alertN = s.alertN := rfl
@[simp] theorem State.withResponse_now (x : Response) : (s.withResponse x).now = s.now := rfl
@[simp] theorem State.withResponse_opt (x : Response) : (s.withResponse x).opt = s.opt := rfl
@[simp] theorem State.withResponse_opq (x : Response) : (s.withResponse x).opq = s.opq := rfl
@[simp] theorem State.withResponse_resp (x : Response) : (s.withResponse x).resp = x := rfl
@[simp] theorem State.withResponse_trace (x : Response) : (s.withResponse x).trace = s.trace := rfl
@[simp] theorem State.withResponse_host (x : Response) : (s.withResponse x).host = s.host := rfl
@[simp] theorem State.withResponse_env (x : Response) : (s.withResponse x).env = s.env := rfl
@[simp] theorem State.withResponse_tick (x : Response) : (s.withResponse x).tick = s.tick := rfl

@[simp] theorem State.withEnv_session (x : List Draw) (n : Nat) : (s.withEnv x n).session = s.session := rfl
@[simp] theorem State.withEnv_sh (x : List Draw) (n : Nat) : (s.withEnv x n).sh = s.sh := rfl
@[simp] theorem State.withEnv_fsm (x : List Draw) (n : Nat) : (s.withEnv x n).fsm = s.fsm := rfl
@[simp] theorem State.withEnv_w (x : List Draw) (n : Nat) : (s.withEnv x n).w = s.w := rfl
@[simp] theorem State.withEnv_p (x : List Draw) (n : Nat) : (s.withEnv x n).p = s.p := rfl
@[simp] theorem State.withEnv_dev (x : List Draw) (n : Nat) : (s.withEnv x n).dev = s.dev := rfl
@[simp] theorem State.withEnv_alertN (x : List Draw) (n : Nat) : (s.withEnv x n).alertN = s.alertN := rfl
@[simp] theorem State.withEnv_now (x : List Draw) (n : Nat) : (s.withEnv x n).now = s.now := rfl
@[simp] theorem State.withEnv_opt (x : List Draw) (n : Nat) : (s.withEnv x n).opt = s.opt := rfl
@[simp] theorem State.withEnv_opq (x : List Draw) (n : Nat) : (s.withEnv x n).opq = s.opq := rfl
@[simp] theorem State.withEnv_resp (x : List Draw) (n : Nat) : (s.withEnv x n).resp = s.resp := rfl
@[simp] theorem State.withEnv_trace (x : List Draw) (n : Nat) : (s.withEnv x n).trace = s.trace := rfl
@[simp] theorem State.withEnv_host (x : List Draw) (n : Nat) : (s.withEnv x n).host = s.host := rfl
@[simp] theorem State.withEnv_env (x : List Draw) (n : Nat) : (s.withEnv x n).env = x := rfl
@[simp] theorem State.withEnv_tick (x : List Draw) (n : Nat) : (s.withEnv x n).tick = n := rfl

@[simp] theorem State.logged_session (t : Txn) : (s.logged t).session = s.session := rfl
@[simp] theorem State.logged_sh (t : Txn) : (s.logged t).sh = s.sh := rfl
@[simp] theorem State.logged_fsm (t : Txn) : (s.logged t).fsm = s.fsm := rfl
@[simp] theorem State.logged_w (t : Txn) : (s.logged t).w = s.w := rfl
@[simp] theorem State.logged_p (t : Txn) : (s.logged t).p = s.p := rfl
@[simp] theorem State.logged_dev (t : Txn) : (s.logged t).dev = s.dev := rfl
@[simp] theorem State.logged_alertN (t : Txn) : (s.logged t).alertN = s.alertN := rfl
@[simp] theorem State.logged_now (t : Txn) : (s.logged t).now = s.now := rfl
@[simp] theorem State.logged_opt (t : Txn) : (s.logged t).opt = s.opt := rfl
@[simp] theorem State.logged_opq (t : Txn) : (s.logged t).opq = s.opq := rfl
@[simp] theorem State.logged_resp (t : Txn) : (s.logged t).resp = s.resp := rfl
@[simp] theorem State.logged_trace (t : Txn) : (s.logged t).trace = s.trace ++ [t] := rfl
@[simp] theorem State.logged_host (t : Txn) : (s.logged t).host = s.host := rfl
@[simp] theorem State.logged_env (t : Txn) : (s.logged t).env = s.env := rfl
@[simp] theorem State.logged_tick (t : Txn) : (s.logged t).tick = s.tick := rfl

@[simp] theorem State.raise_session (e : OpError) : (s.raise e).session = s.session := rfl
@[simp] theorem State.raise_sh (e : OpError) : (s.raise e).sh = s.sh := rfl
@[simp] theorem State.raise_fsm (e : OpError) : (s.raise e).fsm = .idle := rfl
@[simp] theorem State.raise_w (e : OpError) : (s.raise e).w = s.w := rfl
@[simp] theorem State.raise_p (e : OpError) : (s.raise e).p = s.p := rfl
@[simp] theorem State.raise_dev (e : OpError) : (s.raise e).dev = s.dev := rfl
@[simp] theorem State.raise_alertN (e : OpError) : (s.raise e).alertN = s.alertN := rfl
@[simp] theorem State.raise_now (e : OpError) : (s.raise e).now = s.now := rfl
@[simp] theorem State.raise_opt (e : OpError) : (s.raise e).opt = s.opt := rfl
@[simp] theorem State.raise_opq (e : OpError) : (s.raise e).opq = s.opq := rfl
@[simp] theorem State.raise_resp (e : OpError) : (s.raise e).resp = .failed e := rfl
@[simp] theorem State.raise_trace (e : OpError) : (s.raise e).trace = s.trace := rfl
@[simp] theorem State.raise_host (e : OpError) : (s.raise e).host = s.host := rfl
@[simp] theorem State.raise_env (e : OpError) : (s.raise e).env = s.env := rfl
@[simp] theorem State.raise_tick (e : OpError) : (s.raise e).tick = s.tick := rfl

@[simp] theorem State.answer_session (r : Result) : (s.answer r).session = s.session := rfl
@[simp] theorem State.answer_sh (r : Result) : (s.answer r).sh = s.sh := rfl
@[simp] theorem State.answer_fsm (r : Result) : (s.answer r).fsm = s.fsm := rfl
@[simp] theorem State.answer_w (r : Result) : (s.answer r).w = s.w := rfl
@[simp] theorem State.answer_p (r : Result) : (s.answer r).p = s.p := rfl
@[simp] theorem State.answer_dev (r : Result) : (s.answer r).dev = s.dev := rfl
@[simp] theorem State.answer_alertN (r : Result) : (s.answer r).alertN = s.alertN := rfl
@[simp] theorem State.answer_now (r : Result) : (s.answer r).now = s.now := rfl
@[simp] theorem State.answer_opt (r : Result) : (s.answer r).opt = s.opt := rfl
@[simp] theorem State.answer_opq (r : Result) : (s.answer r).opq = s.opq := rfl
@[simp] theorem State.answer_resp (r : Result) : (s.answer r).resp = .done r := rfl
@[simp] theorem State.answer_trace (r : Result) : (s.answer r).trace = s.trace := rfl
@[simp] theorem State.answer_host (r : Result) : (s.answer r).host = s.host := rfl
@[simp] theorem State.answer_env (r : Result) : (s.answer r).env = s.env := rfl
@[simp] theorem State.answer_tick (r : Result) : (s.answer r).tick = s.tick := rfl

end Sys2Proof.Machine
end

