-- ==== Sys2Proof/Laws/Environment.lean ====
section
/-! SUPPORT. What taking a draw and a gap can do: the script moves on, the line and the time base move, and nothing else
changes. -/

namespace Sys2Proof.Machine

variable (s : State)

@[simp] theorem nextDraw_of_env {d : Draw} {r : List Draw} (h : s.env = d :: r) : s.nextDraw = d := by
  simp [State.nextDraw, h]

@[simp] theorem drop_of_env {d : Draw} {r : List Draw} (h : s.env = d :: r) : s.drop = s.withEnv r s.tick := by
  simp [State.drop, h]

/-- Past the script's end every stretch lets at least one microsecond pass. -/
theorem nextDraw_of_nil (h : s.env = []) : ∃ l, s.nextDraw.events = .time 1 :: l := by
  simp [State.nextDraw, h]

/-- Taking a draw changes the script and the index only. -/
theorem drop_eq : ∃ l n, s.drop = s.withEnv l n := ⟨_, _, rfl⟩

/-- Events move the line and the time base only, and time never decreases (R33). -/
theorem events_eq (l : List EnvEvent) (s : State) :
    ∃ b n, s.now ≤ n ∧ State.events l s = (s.withAlert b).withNow n := ⟨_, _, Nat.le_add_right _ _, rfl⟩

/-- The environment moved from `s` to `t`: the line, the time base (forward) and the script, nothing else. -/
abbrev State.environmentOnly (s t : State) : Prop :=
  ∃ b n l k, s.now ≤ n ∧ t = ((s.withEnv l k).withAlert b).withNow n

theorem pause_environmentOnly : s.environmentOnly s.pause := ⟨_, _, _, _, Nat.le_add_right _ _, rfl⟩

@[simp] theorem pause_session : s.pause.session = s.session := rfl
@[simp] theorem pause_sh : s.pause.sh = s.sh := rfl
@[simp] theorem pause_fsm : s.pause.fsm = s.fsm := rfl
@[simp] theorem pause_w : s.pause.w = s.w := rfl
@[simp] theorem pause_p : s.pause.p = s.p := rfl
@[simp] theorem pause_dev : s.pause.dev = s.dev := rfl
@[simp] theorem pause_opt : s.pause.opt = s.opt := rfl
@[simp] theorem pause_opq : s.pause.opq = s.opq := rfl
@[simp] theorem pause_resp : s.pause.resp = s.resp := rfl
@[simp] theorem pause_trace : s.pause.trace = s.trace := rfl
@[simp] theorem pause_host : s.pause.host = s.host := rfl

theorem pause_now_le : s.now ≤ s.pause.now := Nat.le_add_right _ _

@[simp] theorem events_env (l : List EnvEvent) : (State.events l s).env = s.env := rfl
@[simp] theorem events_session (l : List EnvEvent) : (State.events l s).session = s.session := rfl
@[simp] theorem events_sh (l : List EnvEvent) : (State.events l s).sh = s.sh := rfl
@[simp] theorem events_fsm (l : List EnvEvent) : (State.events l s).fsm = s.fsm := rfl
@[simp] theorem events_w (l : List EnvEvent) : (State.events l s).w = s.w := rfl
@[simp] theorem events_p (l : List EnvEvent) : (State.events l s).p = s.p := rfl
@[simp] theorem events_dev (l : List EnvEvent) : (State.events l s).dev = s.dev := rfl
@[simp] theorem events_opt (l : List EnvEvent) : (State.events l s).opt = s.opt := rfl
@[simp] theorem events_opq (l : List EnvEvent) : (State.events l s).opq = s.opq := rfl
@[simp] theorem events_resp (l : List EnvEvent) : (State.events l s).resp = s.resp := rfl
@[simp] theorem events_trace (l : List EnvEvent) : (State.events l s).trace = s.trace := rfl
@[simp] theorem events_host (l : List EnvEvent) : (State.events l s).host = s.host := rfl
@[simp] theorem events_tick (l : List EnvEvent) : (State.events l s).tick = s.tick := rfl

theorem events_now_le (l : List EnvEvent) : s.now ≤ (State.events l s).now := Nat.le_add_right _ _

theorem pause_env_of_cons {d : Draw} {r : List Draw} (h : s.env = d :: r) : s.pause.env = r := by
  simp [State.pause, nextDraw_of_env s h, drop_of_env s h]

/-- Events move the line to the last level they give. -/
@[simp] theorem events_alertN (l : List EnvEvent) : (State.events l s).alertN = lineAfter s.alertN l := rfl

/-- Events move the time base by the time that passes over them. -/
@[simp] theorem events_now (l : List EnvEvent) : (State.events l s).now = s.now + elapsed l := rfl

@[simp] theorem elapsed_nil : elapsed [] = 0 := rfl
@[simp] theorem elapsed_line (b : Bool) (l : List EnvEvent) : elapsed (.line b :: l) = elapsed l := rfl
@[simp] theorem elapsed_time (d : Nat) (l : List EnvEvent) : elapsed (.time d :: l) = d + elapsed l := rfl
@[simp] theorem lineAfter_nil (b : Bool) : lineAfter b [] = b := rfl
@[simp] theorem lineAfter_line (b c : Bool) (l : List EnvEvent) : lineAfter b (.line c :: l) = lineAfter c l := rfl
@[simp] theorem lineAfter_time (b : Bool) (d : Nat) (l : List EnvEvent) : lineAfter b (.time d :: l) = lineAfter b l := rfl

@[simp] theorem events_nil : State.events [] s = s := rfl

/-- A gap in which nothing happens leaves everything but the script. -/
theorem pause_of_quiet {d : Draw} {r : List Draw} (h : s.env = d :: r) (hd : d.events = []) :
    s.pause = s.withEnv r s.tick := by
  rw [State.pause, nextDraw_of_env s h, drop_of_env s h, hd, events_nil]

end Sys2Proof.Machine
end

