-- ==== Sys2Proof/Laws/Access.lean ====
section
/-! SUPPORT. What one access and one RMW can do (R54 to R64, R72), said once. -/

namespace Sys2Proof.Machine

/-! ### Bits of Mask/Enable and Configuration words -/

theorem setBits_getElem (m k : Word) (b : Bool) (i : Nat) (hi : i < 16) :
    (setBits m k b)[i] = if k[i] then b else m[i] := by
  unfold setBits
  cases b <;> cases hk : k[i] <;> simp [hk]

/-- A word is split by a mask and its complement. -/
theorem eq_of_masked {a b k : Word} (h1 : a &&& k = b &&& k) (h2 : a &&& ~~~k = b &&& ~~~k) : a = b := by
  ext i hi
  have e1 := congrArg (fun w : Word => w[i]) h1
  have e2 := congrArg (fun w : Word => w[i]) h2
  simp only [BitVec.getElem_and, BitVec.getElem_not] at e1 e2
  cases hk : k[i] <;> simp_all

/-- Setting bits inside `l` leaves the bits outside `l`. -/
theorem setBits_outside (m k l : Word) (b : Bool) (h : k &&& ~~~l = 0) : setBits m k b &&& ~~~l = m &&& ~~~l := by
  ext i hi
  have e := congrArg (fun w : Word => w[i]) h
  simp only [BitVec.getElem_and, BitVec.getElem_not, setBits_getElem _ _ _ _ hi] at e ⊢
  cases hk : k[i] <;> cases hl : l[i] <;> simp_all

theorem ownChange_outside (m k l : Word) (c : Option Bool) (h : k &&& ~~~l = 0) :
    ownChange m k c &&& ~~~l = m &&& ~~~l := by
  cases c with
  | none => rfl
  | some b => exact setBits_outside m k l b h

/-- R63: the device's own changes touch the three flags only. -/
theorem ownFlags_stored (m : Word) (d : Draw) : ownFlags m d &&& ~~~(0x001C : Word) = m &&& ~~~(0x001C : Word) := by
  unfold ownFlags
  rw [ownChange_outside _ _ _ _ (by decide), ownChange_outside _ _ _ _ (by decide)]
  unfold ownAff
  split
  · rfl
  · exact ownChange_outside _ _ _ _ (by decide)

/-- R60 to R62: a read of Mask/Enable touches CVRF and AFF only. -/
theorem clearOnRead_stored (m : Word) (d : Draw) :
    clearOnRead m d &&& ~~~(0x0018 : Word) = m &&& ~~~(0x0018 : Word) := by
  unfold clearOnRead
  rw [setBits_outside _ _ _ _ (by decide), setBits_outside _ _ _ _ (by decide)]

/-! ### One access -/

variable (s : State)

/-- The state an access meets differs from the one before only in the environment and the device's own changes. -/
theorem atAccess_eq : ∃ b n l k, s.now ≤ n ∧
    s.atAccess = (((s.withEnv l k).withAlert b).withNow n).withDevice (s.dev.evolve s.nextDraw) := by
  obtain ⟨b, n, l, k, hn, h⟩ := pause_environmentOnly s
  exact ⟨b, n, l, k, hn, by rw [State.atAccess, ← h]; rfl⟩

@[simp] theorem atAccess_dev : s.atAccess.dev = s.dev.evolve s.nextDraw := rfl

/-- What one access leaves alone, whether it succeeds or fails. -/
abbrev State.accessOnly (s t : State) : Prop :=
  t.session = s.session ∧ t.sh = s.sh ∧ t.fsm = s.fsm ∧ t.w = s.w ∧ t.p = s.p ∧ t.opt = s.opt ∧ t.opq = s.opq ∧
    t.resp = s.resp ∧ t.host = s.host ∧ s.now ≤ t.now

theorem atAccess_accessOnly (d : Device) (x : Txn) : s.accessOnly ((s.atAccess.withDevice d).logged x) := by
  obtain ⟨b, n, l, k, hn, h⟩ := atAccess_eq s
  rw [h]
  simpa [State.accessOnly] using hn

theorem regRead_accessOnly (r : DevReg) : s.accessOnly (regRead r s).state := by
  unfold regRead
  split <;> exact atAccess_accessOnly s _ _

theorem regWrite_accessOnly (r : DevReg) (v : Word) : s.accessOnly (regWrite r v s).state := by
  unfold regWrite
  split <;> exact atAccess_accessOnly s _ _

/-- What an ended read did (R54, R72): the value is the register's content as the device gave it. -/
theorem regRead_ok {r : DevReg} {v : Word} {t : State} (h : regRead r s = .ok v t) :
    s.nextDraw.fails = false ∧ v = (s.dev.evolve s.nextDraw).get r ∧
      t = (s.atAccess.withDevice ((s.dev.evolve s.nextDraw).afterRead r s.nextDraw)).logged (.read r.addr v) := by
  unfold regRead at h
  split at h
  · cases h
  · rename_i hf
    cases h
    exact ⟨by simpa using hf, rfl, rfl⟩

/-- What a failed read did (R72). -/
theorem regRead_err {r : DevReg} {e : OpError} {t : State} (h : regRead r s = .err e t) :
    s.nextDraw.fails = true ∧ e = .transport r.addr false ∧
      t = (s.atAccess.withDevice (if s.nextDraw.took then (s.dev.evolve s.nextDraw).afterRead r s.nextDraw
        else s.dev.evolve s.nextDraw)).logged (.readFailed r.addr) := by
  unfold regRead at h
  split at h
  · rename_i hf
    cases h
    exact ⟨hf, rfl, rfl⟩
  · cases h

/-- What an ended write did (R55). -/
theorem regWrite_ok {r : DevReg} {v : Word} {u : Unit} {t : State} (h : regWrite r v s = .ok u t) :
    s.nextDraw.fails = false ∧
      t = (s.atAccess.withDevice ((s.dev.evolve s.nextDraw).afterWrite r v)).logged (.write r.addr v) := by
  unfold regWrite at h
  split at h
  · cases h
  · rename_i hf
    cases h
    exact ⟨by simpa using hf, rfl⟩

/-- What a failed write did (R72): the device took it or did not. -/
theorem regWrite_err {r : DevReg} {v : Word} {e : OpError} {t : State} (h : regWrite r v s = .err e t) :
    s.nextDraw.fails = true ∧ e = .transport r.addr true ∧
      t = (s.atAccess.withDevice (if s.nextDraw.took then (s.dev.evolve s.nextDraw).afterWrite r v
        else s.dev.evolve s.nextDraw)).logged (.writeFailed r.addr v) := by
  unfold regWrite at h
  split at h
  · rename_i hf
    cases h
    exact ⟨hf, rfl, rfl⟩
  · cases h

/-- A transaction that the draw lets pass answers, with the state R54 gives. -/
theorem regRead_of_ok {d : Draw} {l : List Draw} (r : DevReg) (h : s.env = d :: l) (hd : d.fails = false) :
    regRead r s = .ok ((s.dev.evolve d).get r)
      (((State.events d.events (s.withEnv l s.tick)).withDevice ((s.dev.evolve d).afterRead r d)).logged
        (.read r.addr ((s.dev.evolve d).get r))) := by
  simp [regRead, State.atAccess, nextDraw_of_env s h, drop_of_env s h, hd]
  rfl

/-- A write that the draw lets pass, with the state R55 gives. -/
theorem regWrite_of_ok {d : Draw} {l : List Draw} (r : DevReg) (v : Word) (h : s.env = d :: l) (hd : d.fails = false) :
    regWrite r v s = .ok ()
      (((State.events d.events (s.withEnv l s.tick)).withDevice ((s.dev.evolve d).afterWrite r v)).logged
        (.write r.addr v)) := by
  simp [regWrite, State.atAccess, nextDraw_of_env s h, drop_of_env s h, hd]
  rfl

/-! ### Parts of an operation -/

/-- R247: an error in the first part is the error of the whole; otherwise the second part runs. -/
theorem bind_cases {α β : Type} (r : Res α) (f : α → State → Res β) :
    (∃ e t, r = .err e t ∧ r.bind f = .err e t) ∨ (∃ a t, r = .ok a t ∧ r.bind f = f a t) := by
  cases r with
  | ok a t => exact .inr ⟨a, t, rfl, rfl⟩
  | err e t => exact .inl ⟨e, t, rfl, rfl⟩

@[simp] theorem bind_ok {α β : Type} (a : α) (t : State) (f : α → State → Res β) : (Res.ok a t).bind f = f a t := rfl
@[simp] theorem bind_err {α β : Type} (e : OpError) (t : State) (f : α → State → Res β) :
    (Res.err e t : Res α).bind f = .err e t := rfl
@[simp] theorem state_ok {α : Type} (a : α) (t : State) : (Res.ok a t).state = t := rfl
@[simp] theorem state_err {α : Type} (e : OpError) (t : State) : (Res.err e t : Res α).state = t := rfl

/-- A property that every part keeps is kept by their sequence. -/
theorem bind_keeps {α β : Type} {P : State → Prop} {r : Res α} {f : α → State → Res β} (hr : P r.state)
    (hf : ∀ a t, r = .ok a t → P t → P (f a t).state) : P (r.bind f).state := by
  cases r with
  | ok a t => exact hf a t rfl hr
  | err e t => exact hr

/-- A transitive relation that every part keeps is kept by their sequence. -/
theorem bind_relates {α β : Type} {R : State → State → Prop} (htr : ∀ a b c, R a b → R b c → R a c) {s : State}
    {r : Res α} {f : α → State → Res β} (hr : R s r.state) (hf : ∀ a t, r = .ok a t → R t (f a t).state) :
    R s (r.bind f).state := by
  cases r with
  | ok a t => exact htr _ _ _ hr (hf a t rfl)
  | err e t => exact hr

@[simp] theorem answered_ok (r : Result) (t : State) : (Res.ok r t).answered = t.answer r := rfl
@[simp] theorem answered_err (e : OpError) (t : State) : (Res.err e t).answered = t.raise e := rfl
@[simp] theorem unit_ok (u : Unit) (t : State) : (Res.ok u t).unit = .ok .none t := rfl
@[simp] theorem unit_err (e : OpError) (t : State) : (Res.err e t : Res Unit).unit = .err e t := rfl

/-- R247, R249: an operation always answers, and with what its parts ended in. -/
theorem complete_next {r : Res Result} {t : State} (h : complete r = .next t) : t = r.answered := by
  cases h; rfl

end Sys2Proof.Machine
end

