-- ==== Sys2Proof/Laws/Converter.lean ====
section
/-! SUPPORT. What the converter's shared operations can do (R12, R160, R164). -/

namespace Sys2Proof.Machine

/-- `signed16` is the two's-complement value (R12). -/
theorem signed16_eq_toInt (n : Word) : signed16 n = n.toInt := by
  unfold signed16
  rw [BitVec.toInt_eq_toNat_cond]
  split <;> split <;> simp <;> omega

/-- Below 32768 the signed reading is the count itself. -/
theorem signed16_of_lt {n : Word} (h : n.toNat < 32768) : signed16 n = n.toNat := by simp [signed16, h]

/-- R176(d), R9: the divider factor is positive. -/
theorem dividerFactor_pos (x : Session) : 0 < dividerFactor x := by
  unfold dividerFactor
  have := x.rBus_pos
  have := x.rSeries_nonneg
  positivity

/-- R164 step 3: quantizing answers a count only when it is the nearest integer. -/
theorem quantize_ok {x : Session} {q : Rat} {n : Word} (h : quantize x q = .ok n) :
    roundInt x.roundTie q = (n.toNat : Int) := by
  unfold quantize at h
  split at h
  · cases h
  · cases h
    simp only [BitVec.toNat_ofInt]
    omega

/-- R164 steps 2 and 3: a nearest integer that is a count is answered. -/
theorem quantize_of_count {x : Session} {q : Rat} {n : Word} (h : roundInt x.roundTie q = (n.toNat : Int)) :
    quantize x q = .ok n := by
  have := n.isLt
  unfold quantize
  rw [h, if_neg (by omega)]
  congr 1
  apply BitVec.eq_of_toNat_eq
  simp

/-- R164 step 3: a nearest integer that is no count is a RangeError. -/
theorem quantize_of_range {x : Session} {q : Rat} (h : roundInt x.roundTie q < 0 ∨ 65535 < roundInt x.roundTie q) :
    quantize x q = .error (.range (roundInt x.roundTie q)) := by
  unfold quantize
  rw [if_pos h]

end Sys2Proof.Machine
end

