-- ==== Sys2Proof/Laws/Encoding.lean ====
section
/-! SUPPORT. The fields of an encoded word, format by format (R90). -/

namespace Sys2Proof

/-- A field that lies wholly in the low part of a concatenation. -/
theorem extract_low {n m : Nat} (a : BitVec n) (b : BitVec m) (lo k : Nat) (h : lo + k ≤ m) :
    (a ++ b).extractLsb' lo k = b.extractLsb' lo k := by
  ext i hi
  simp only [BitVec.getElem_extractLsb', BitVec.getLsbD_append]
  simp [show lo + i < m by omega]

/-- A field that lies wholly in the high part of a concatenation. -/
theorem extract_high {n m : Nat} (a : BitVec n) (b : BitVec m) (lo k : Nat) (h : m ≤ lo) :
    (a ++ b).extractLsb' lo k = a.extractLsb' (lo - m) k := by
  ext i hi
  simp only [BitVec.getElem_extractLsb', BitVec.getLsbD_append]
  simp [show ¬ lo + i < m by omega, show lo + i - m = lo - m + i by omega]

theorem extract_all {n : Nat} (a : BitVec n) : a.extractLsb' 0 n = a := by
  ext i hi
  simp

variable (op sel : BitVec 8) (imm : BitVec 16) (b c v i : Bool) (s0 s1 s2 s3 s4 s5 : BitVec 4)

theorem opcodeField_encodeN : opcodeField (encodeN op) = op := by
  unfold opcodeField encodeN
  rw [extract_high _ _ _ _ (by decide), extract_all]

theorem zero_encodeN : (encodeN op).extractLsb' 0 24 = 0 := by
  unfold encodeN
  rw [extract_low _ _ _ _ (by decide), extract_all]

theorem opcodeField_encodeI : opcodeField (encodeI op imm) = op := by
  unfold opcodeField encodeI
  rw [extract_high _ _ _ _ (by decide), extract_high _ _ _ _ (by decide), extract_all]

theorem zero_encodeI : (encodeI op imm).extractLsb' 16 8 = 0 := by
  unfold encodeI
  rw [extract_high _ _ _ _ (by decide), extract_low _ _ _ _ (by decide), extract_all]

theorem immField_encodeI : immField (encodeI op imm) = imm := by
  unfold immField encodeI
  rw [extract_low _ _ _ _ (by decide), extract_all]

theorem opcodeField_encodeSI : opcodeField (encodeSI op sel imm) = op := by
  unfold opcodeField encodeSI
  rw [extract_high _ _ _ _ (by decide), extract_high _ _ _ _ (by decide), extract_all]

theorem selField_encodeSI : selField (encodeSI op sel imm) = sel := by
  unfold selField encodeSI
  rw [extract_high _ _ _ _ (by decide), extract_low _ _ _ _ (by decide), extract_all]

theorem immField_encodeSI : immField (encodeSI op sel imm) = imm := by
  unfold immField encodeSI
  rw [extract_low _ _ _ _ (by decide), extract_all]

theorem opcodeField_encodeS : opcodeField (encodeS op sel) = op := by
  unfold opcodeField encodeS
  rw [extract_high _ _ _ _ (by decide), extract_high _ _ _ _ (by decide), extract_all]

theorem selField_encodeS : selField (encodeS op sel) = sel := by
  unfold selField encodeS
  rw [extract_high _ _ _ _ (by decide), extract_low _ _ _ _ (by decide), extract_all]

theorem zero_encodeS : (encodeS op sel).extractLsb' 0 16 = 0 := by
  unfold encodeS
  rw [extract_low _ _ _ _ (by decide), extract_all]

theorem opcodeField_encodeB : opcodeField (encodeB op b) = op := by
  unfold opcodeField encodeB
  rw [extract_high _ _ _ _ (by decide), extract_high _ _ _ _ (by decide), extract_all]

theorem zero_encodeB : (encodeB op b).extractLsb' 1 23 = 0 := by
  unfold encodeB
  rw [extract_high _ _ _ _ (by decide), extract_low _ _ _ _ (by decide), extract_all]

theorem bit_encodeB : (encodeB op b)[0] = b := by
  unfold encodeB
  rw [BitVec.getElem_append]
  cases b <;> rfl

theorem opcodeField_encodeM : opcodeField (encodeM op c v i) = op := by
  unfold opcodeField encodeM
  rw [extract_high _ _ _ _ (by decide), extract_high _ _ _ _ (by decide), extract_high _ _ _ _ (by decide),
    extract_high _ _ _ _ (by decide), extract_all]

theorem zero_encodeM : (encodeM op c v i).extractLsb' 3 21 = 0 := by
  unfold encodeM
  rw [extract_high _ _ _ _ (by decide), extract_high _ _ _ _ (by decide), extract_high _ _ _ _ (by decide),
    extract_low _ _ _ _ (by decide), extract_all]

theorem bits_encodeM : (encodeM op c v i)[2] = c ∧ (encodeM op c v i)[1] = v ∧ (encodeM op c v i)[0] = i := by
  unfold encodeM
  refine ⟨?_, ?_, ?_⟩
  · rw [BitVec.getElem_append, dif_neg (by decide), BitVec.getElem_append, dif_neg (by decide), BitVec.getElem_append]
    cases c <;> rfl
  · rw [BitVec.getElem_append, dif_neg (by decide), BitVec.getElem_append]
    cases v <;> rfl
  · rw [BitVec.getElem_append]
    cases i <;> rfl

theorem opcodeField_encodeL : opcodeField (encodeL op s0 s1 s2 s3 s4 s5) = op := by
  unfold opcodeField encodeL
  rw [extract_high _ _ _ _ (by decide), extract_high _ _ _ _ (by decide), extract_high _ _ _ _ (by decide),
    extract_high _ _ _ _ (by decide), extract_high _ _ _ _ (by decide), extract_high _ _ _ _ (by decide), extract_all]

theorem slots_encodeL :
    slotField (encodeL op s0 s1 s2 s3 s4 s5) 0 = s0 ∧ slotField (encodeL op s0 s1 s2 s3 s4 s5) 4 = s1 ∧
    slotField (encodeL op s0 s1 s2 s3 s4 s5) 8 = s2 ∧ slotField (encodeL op s0 s1 s2 s3 s4 s5) 12 = s3 ∧
    slotField (encodeL op s0 s1 s2 s3 s4 s5) 16 = s4 ∧ slotField (encodeL op s0 s1 s2 s3 s4 s5) 20 = s5 := by
  unfold slotField encodeL
  refine ⟨?_, ?_, ?_, ?_, ?_, ?_⟩
  · rw [extract_low _ _ _ _ (by decide), extract_all]
  · rw [extract_high _ _ _ _ (by decide), extract_low _ _ _ _ (by decide), extract_all]
  · rw [extract_high _ _ _ _ (by decide), extract_high _ _ _ _ (by decide), extract_low _ _ _ _ (by decide), extract_all]
  · rw [extract_high _ _ _ _ (by decide), extract_high _ _ _ _ (by decide), extract_high _ _ _ _ (by decide),
      extract_low _ _ _ _ (by decide), extract_all]
  · rw [extract_high _ _ _ _ (by decide), extract_high _ _ _ _ (by decide), extract_high _ _ _ _ (by decide),
      extract_high _ _ _ _ (by decide), extract_low _ _ _ _ (by decide), extract_all]
  · rw [extract_high _ _ _ _ (by decide), extract_high _ _ _ _ (by decide), extract_high _ _ _ _ (by decide),
      extract_high _ _ _ _ (by decide), extract_high _ _ _ _ (by decide), extract_low _ _ _ _ (by decide), extract_all]

/-! ### A word is made of its fields -/

/-- Two neighbouring fields joined are one field. -/
theorem join (w : CommandWord) (lo k hi n : Nat) (h : hi = lo + k) :
    w.extractLsb' hi n ++ w.extractLsb' lo k = w.extractLsb' lo (n + k) := by
  subst h
  ext j hj
  simp only [BitVec.getElem_append, BitVec.getElem_extractLsb']
  split
  · rfl
  · congr 1
    omega

variable (w : CommandWord)

theorem word_eq : w.extractLsb' 0 32 = w := extract_all w

theorem encodeN_fields (h : w.extractLsb' 0 24 = 0) : encodeN (opcodeField w) = w := by
  unfold encodeN opcodeField
  rw [← h, join w 0 24 24 8 rfl, word_eq]

theorem encodeI_fields (h : w.extractLsb' 16 8 = 0) : encodeI (opcodeField w) (immField w) = w := by
  unfold encodeI opcodeField immField
  rw [← h, join w 16 8 24 8 rfl, join w 0 16 16 16 rfl, word_eq]

theorem encodeSI_fields : encodeSI (opcodeField w) (selField w) (immField w) = w := by
  unfold encodeSI opcodeField selField immField
  rw [join w 16 8 24 8 rfl, join w 0 16 16 16 rfl, word_eq]

theorem encodeS_fields (h : w.extractLsb' 0 16 = 0) : encodeS (opcodeField w) (selField w) = w := by
  unfold encodeS opcodeField selField
  rw [← h, join w 16 8 24 8 rfl, join w 0 16 16 16 rfl, word_eq]

theorem ofBool_bit (k : Nat) : BitVec.ofBool (w.getLsbD k) = w.extractLsb' k 1 := by
  ext j hj
  have : j = 0 := by omega
  subst this
  simp

theorem encodeB_fields (h : w.extractLsb' 1 23 = 0) : encodeB (opcodeField w) (w.getLsbD 0) = w := by
  unfold encodeB opcodeField
  rw [ofBool_bit, ← h, join w 1 23 24 8 rfl, join w 0 1 1 31 rfl, word_eq]

theorem encodeM_fields (h : w.extractLsb' 3 21 = 0) :
    encodeM (opcodeField w) (w.getLsbD 2) (w.getLsbD 1) (w.getLsbD 0) = w := by
  unfold encodeM opcodeField
  rw [ofBool_bit, ofBool_bit, ofBool_bit, ← h, join w 3 21 24 8 rfl, join w 2 1 3 29 rfl, join w 1 1 2 30 rfl,
    join w 0 1 1 31 rfl, word_eq]

theorem encodeL_fields : encodeL (opcodeField w) (slotField w 0) (slotField w 4) (slotField w 8) (slotField w 12)
    (slotField w 16) (slotField w 20) = w := by
  unfold encodeL opcodeField slotField
  rw [join w 20 4 24 8 rfl, join w 16 4 20 12 rfl, join w 12 4 16 16 rfl, join w 8 4 12 20 rfl, join w 4 4 8 24 rfl,
    join w 0 4 4 28 rfl, word_eq]

/-! ### What a format's reader accepted -/

variable {w} {i' : Instr}

theorem ifZero_ok {z : Bool} {j : Instr} (h : ifZero z w j = .ok i') : z = true ∧ j = i' := by
  unfold ifZero at h
  split at h
  · cases h; exact ⟨by assumption, rfl⟩
  · cases h

theorem decodeN_ok {j : Instr} (h : decodeN w j = .ok i') : j = i' ∧ encodeN (opcodeField w) = w := by
  obtain ⟨hz, hj⟩ := ifZero_ok h
  exact ⟨hj, encodeN_fields w (by simpa using hz)⟩

theorem decodeI_ok {mk : BitVec 16 → Instr} (h : decodeI w mk = .ok i') :
    mk (immField w) = i' ∧ encodeI (opcodeField w) (immField w) = w := by
  obtain ⟨hz, hj⟩ := ifZero_ok h
  exact ⟨hj, encodeI_fields w (by simpa using hz)⟩

theorem decodeSI_ok {mk : BitVec 8 → BitVec 16 → Instr} (h : decodeSI w mk = .ok i') :
    mk (selField w) (immField w) = i' ∧ encodeSI (opcodeField w) (selField w) (immField w) = w := by
  cases h
  exact ⟨rfl, encodeSI_fields w⟩

theorem decodeS_ok {mk : BitVec 8 → Instr} (h : decodeS w mk = .ok i') :
    mk (selField w) = i' ∧ encodeS (opcodeField w) (selField w) = w := by
  obtain ⟨hz, hj⟩ := ifZero_ok h
  exact ⟨hj, encodeS_fields w (by simpa using hz)⟩

theorem decodeB_ok {mk : Bool → Instr} (h : decodeB w mk = .ok i') :
    mk (w.getLsbD 0) = i' ∧ encodeB (opcodeField w) (w.getLsbD 0) = w := by
  obtain ⟨hz, hj⟩ := ifZero_ok h
  exact ⟨hj, encodeB_fields w (by simpa using hz)⟩

theorem decodeM_ok {mk : Bool → Bool → Bool → Instr} (h : decodeM w mk = .ok i') :
    mk (w.getLsbD 2) (w.getLsbD 1) (w.getLsbD 0) = i' ∧
      encodeM (opcodeField w) (w.getLsbD 2) (w.getLsbD 1) (w.getLsbD 0) = w := by
  obtain ⟨hz, hj⟩ := ifZero_ok h
  exact ⟨hj, encodeM_fields w (by simpa using hz)⟩

theorem decodeL_ok {mk : BitVec 4 → BitVec 4 → BitVec 4 → BitVec 4 → BitVec 4 → BitVec 4 → Instr}
    (h : decodeL w mk = .ok i') :
    mk (slotField w 0) (slotField w 4) (slotField w 8) (slotField w 12) (slotField w 16) (slotField w 20) = i' ∧
      encodeL (opcodeField w) (slotField w 0) (slotField w 4) (slotField w 8) (slotField w 12) (slotField w 16)
        (slotField w 20) = w := by
  cases h
  exact ⟨rfl, encodeL_fields w⟩

end Sys2Proof
end

