-- ==== Sys2Proof/Laws/Rmw.lean ====
section
/-! SUPPORT. What a read, a write and an RMW do to the stored registers and to the legality of the device (R56 to R63,
R69, R72). -/

namespace Sys2Proof.Machine

/-! ### Stored bits -/

theorem ownFlags_storedMask (m : Word) (d : Draw) : storedMask (ownFlags m d) = storedMask m := by
  have h := congrArg (· &&& (0xFC03 : Word)) (ownFlags_stored m d)
  have k : ∀ x : Word, x &&& ~~~(0x001C : Word) &&& 0xFC03 = x &&& 0xFC03 := by
    intro x; rw [BitVec.and_assoc]; rfl
  simpa only [k, storedMask] using h

theorem clearOnRead_storedMask (m : Word) (d : Draw) : storedMask (clearOnRead m d) = storedMask m := by
  have h := congrArg (· &&& (0xFC03 : Word)) (clearOnRead_stored m d)
  have k : ∀ x : Word, x &&& ~~~(0x0018 : Word) &&& 0xFC03 = x &&& 0xFC03 := by
    intro x; rw [BitVec.and_assoc]; rfl
  simpa only [k, storedMask] using h

/-- A draw in which the device changes no flag leaves the word. -/
@[simp] theorem ownFlags_quiet (m : Word) {d : Draw} (h : flagsQuiet d) : ownFlags m d = m := by
  obtain ⟨h1, h2, h3⟩ := h
  simp [ownFlags, ownAff, ownChange, h1, h2, h3]

theorem storeMask_storedMask (m v : Word) : storedMask (storeMask m v) = v &&& 0xFC03 := by
  unfold storedMask storeMask
  ext i hi
  have : i = 0 ∨ i = 1 ∨ i = 2 ∨ i = 3 ∨ i = 4 ∨ i = 5 ∨ i = 6 ∨ i = 7 ∨ i = 8 ∨ i = 9 ∨ i = 10 ∨ i = 11 ∨ i = 12 ∨
      i = 13 ∨ i = 14 ∨ i = 15 := by omega
  rcases this with h | h | h | h | h | h | h | h | h | h | h | h | h | h | h | h <;> subst h <;> simp

theorem storeMask_flags (m v : Word) : storeMask m v &&& 0x001C = m &&& 0x001C := by
  unfold storeMask
  ext i hi
  have : i = 0 ∨ i = 1 ∨ i = 2 ∨ i = 3 ∨ i = 4 ∨ i = 5 ∨ i = 6 ∨ i = 7 ∨ i = 8 ∨ i = 9 ∨ i = 10 ∨ i = 11 ∨ i = 12 ∨
      i = 13 ∨ i = 14 ∨ i = 15 := by omega
  rcases this with h | h | h | h | h | h | h | h | h | h | h | h | h | h | h | h <;> subst h <;> simp

theorem storeMask_reserved (m v : Word) : storeMask m v &&& maskReserved = 0 := by
  unfold storeMask maskReserved
  ext i hi
  have : i = 0 ∨ i = 1 ∨ i = 2 ∨ i = 3 ∨ i = 4 ∨ i = 5 ∨ i = 6 ∨ i = 7 ∨ i = 8 ∨ i = 9 ∨ i = 10 ∨ i = 11 ∨ i = 12 ∨
      i = 13 ∨ i = 14 ∨ i = 15 := by omega
  rcases this with h | h | h | h | h | h | h | h | h | h | h | h | h | h | h | h <;> subst h <;> simp

theorem storeConfig_legal (v : Word) : storeConfig v &&& 0xF000 = configFixed := by
  unfold storeConfig configFixed
  ext i hi
  have : i = 0 ∨ i = 1 ∨ i = 2 ∨ i = 3 ∨ i = 4 ∨ i = 5 ∨ i = 6 ∨ i = 7 ∨ i = 8 ∨ i = 9 ∨ i = 10 ∨ i = 11 ∨ i = 12 ∨
      i = 13 ∨ i = 14 ∨ i = 15 := by omega
  rcases this with h | h | h | h | h | h | h | h | h | h | h | h | h | h | h | h <;> subst h <;> simp

/-- R57: a word whose bits 15:12 are 0b0110 is stored as it is written. -/
theorem storeConfig_of_legal {v : Word} (h : v &&& 0xF000 = configFixed) : storeConfig v = v := by
  refine eq_of_masked (k := 0xF000) ((storeConfig_legal v).trans h.symm) ?_
  unfold storeConfig configFixed
  ext i hi
  have : i = 0 ∨ i = 1 ∨ i = 2 ∨ i = 3 ∨ i = 4 ∨ i = 5 ∨ i = 6 ∨ i = 7 ∨ i = 8 ∨ i = 9 ∨ i = 10 ∨ i = 11 ∨ i = 12 ∨
      i = 13 ∨ i = 14 ∨ i = 15 := by omega
  rcases this with h | h | h | h | h | h | h | h | h | h | h | h | h | h | h | h <;> subst h <;> simp

/-- R57: an RMW on Configuration never writes bit 15 as 1. -/
theorem mergeBits_legal {old m v : Word} (h : old &&& 0xF000 = configFixed) (hm : m &&& 0xF000 = 0)
    (hv : v &&& 0xF000 = 0) : mergeBits old m v &&& 0xF000 = configFixed := by
  rw [← h]
  unfold mergeBits
  ext i hi
  have e1 := congrArg (fun w : Word => w[i]) hm
  have e2 := congrArg (fun w : Word => w[i]) hv
  simp only [BitVec.getElem_and, BitVec.getElem_or, BitVec.getElem_not] at e1 e2 ⊢
  cases hf : (0xF000 : Word)[i] <;> simp_all

theorem legal_bit15 {v : Word} (h : v &&& 0xF000 = configFixed) : v.getLsbD 15 = false := by
  have e := congrArg (fun w : Word => w[15]) h
  simpa [configFixed] using e

/-- R60 to R62: the flags after a read of Mask/Enable. -/
theorem clearOnRead_flags (m : Word) (d : Draw) : flagsAfterRead m (clearOnRead m d) d := by
  have t : ∀ i (hi : i < 16), (clearOnRead m d).getLsbD i =
      if affMask[i] then (!lenOf m && d.affAfter) else if cvrfMask[i] then false else m[i] := by
    intro i hi
    rw [BitVec.getLsbD_eq_getElem hi]
    unfold clearOnRead
    rw [setBits_getElem _ _ _ _ hi, setBits_getElem _ _ _ _ hi]
  exact ⟨(t 3 (by omega)).trans rfl, (t 2 (by omega)).trans rfl, (t 4 (by omega)).trans rfl⟩

/-! ### The device under an access -/

variable (d : Device) (x : Draw) (r : DevReg) (v : Word)

/-- R63. -/
@[simp] theorem evolve_stored (q : DevReg) : (d.evolve x).stored q = d.stored q := by
  cases q <;> simp [Device.evolve, Device.stored, ownFlags_storedMask]

@[simp] theorem evolve_config : (d.evolve x).config = d.config := rfl
@[simp] theorem evolve_mask : (d.evolve x).mask = ownFlags d.mask x := rfl
@[simp] theorem evolve_limit : (d.evolve x).limit = d.limit := rfl
@[simp] theorem evolve_manufacturerId : (d.evolve x).manufacturerId = d.manufacturerId := rfl
@[simp] theorem evolve_dieId : (d.evolve x).dieId = d.dieId := rfl
@[simp] theorem evolve_current : (d.evolve x).current = x.current := rfl
@[simp] theorem evolve_busVoltage : (d.evolve x).busVoltage = x.busVoltage := rfl
@[simp] theorem evolve_power : (d.evolve x).power = x.power := rfl

/-- R60 to R62: a read changes no stored bit. -/
@[simp] theorem afterRead_stored (q : DevReg) : (d.afterRead r x).stored q = d.stored q := by
  cases r <;> cases q <;> simp [Device.afterRead, Device.addressed, Device.stored, clearOnRead_storedMask]

@[simp] theorem afterRead_config : (d.afterRead r x).config = d.config := by cases r <;> rfl
@[simp] theorem afterRead_limit : (d.afterRead r x).limit = d.limit := by cases r <;> rfl
@[simp] theorem afterRead_manufacturerId : (d.afterRead r x).manufacturerId = d.manufacturerId := by cases r <;> rfl
@[simp] theorem afterRead_dieId : (d.afterRead r x).dieId = d.dieId := by cases r <;> rfl
theorem afterRead_mask : (d.afterRead r x).mask = if r = .mask then clearOnRead d.mask x else d.mask := by
  cases r <;> rfl

@[simp] theorem afterWrite_manufacturerId : (d.afterWrite r v).manufacturerId = d.manufacturerId := by
  cases r <;> simp [Device.afterWrite, Device.addressed, Device.resetRegs]
  split <;> rfl
@[simp] theorem afterWrite_dieId : (d.afterWrite r v).dieId = d.dieId := by
  cases r <;> simp [Device.afterWrite, Device.addressed, Device.resetRegs]
  split <;> rfl

/-- R57 to R59: a write with bit 15 clear changes no stored bit of another register. -/
theorem afterWrite_stored_other (h : r = .config → v.getLsbD 15 = false) (q : DevReg) (hq : q ≠ r) :
    (d.afterWrite r v).stored q = d.stored q := by
  cases r <;> cases q <;> simp_all [Device.afterWrite, Device.addressed, Device.stored]

theorem afterWrite_config (h : v.getLsbD 15 = false) : (d.afterWrite .config v).config = storeConfig v := by
  simp only [Device.afterWrite, h, Bool.false_eq_true, if_false]

theorem afterWrite_config_mask (h : v.getLsbD 15 = false) : (d.afterWrite .config v).mask = d.mask := by
  simp only [Device.afterWrite, h, Bool.false_eq_true, if_false, Device.addressed]

@[simp] theorem afterWrite_mask : (d.afterWrite .mask v).mask = storeMask d.mask v := rfl
@[simp] theorem afterWrite_mask_config : (d.afterWrite .mask v).config = d.config := rfl
@[simp] theorem afterWrite_limit : (d.afterWrite .limit v).limit = v := rfl

/-! ### Legality (R35, R36) -/

theorem ownFlags_reserved {m : Word} (h : m &&& maskReserved = 0) : ownFlags m x &&& maskReserved = 0 := by
  have e := congrArg (· &&& maskReserved) (ownFlags_stored m x)
  have k : ∀ y : Word, y &&& ~~~(0x001C : Word) &&& maskReserved = y &&& maskReserved := by
    intro y; rw [BitVec.and_assoc]; rfl
  simp only [k] at e
  rw [e, h]

theorem clearOnRead_reserved {m : Word} (h : m &&& maskReserved = 0) : clearOnRead m x &&& maskReserved = 0 := by
  have e := congrArg (· &&& maskReserved) (clearOnRead_stored m x)
  have k : ∀ y : Word, y &&& ~~~(0x0018 : Word) &&& maskReserved = y &&& maskReserved := by
    intro y; rw [BitVec.and_assoc]; rfl
  simp only [k] at e
  rw [e, h]

variable {d}

theorem evolve_legal (h : d.legal) : (d.evolve x).legal := ⟨h.1, ownFlags_reserved x h.2⟩

theorem afterRead_legal (h : d.legal) : (d.afterRead r x).legal := by
  refine ⟨by simpa using h.1, ?_⟩
  rw [afterRead_mask]
  split
  · exact clearOnRead_reserved x h.2
  · exact h.2

/-- Every write keeps the device legal: a Configuration write stores 0b0110 in bits 15:12 or resets the device. -/
theorem afterWrite_legal (h : d.legal) : (d.afterWrite r v).legal := by
  cases r with
  | config =>
    unfold Device.afterWrite
    dsimp only
    split
    · exact ⟨(by decide : (0x6127 : Word) &&& 0xF000 = configFixed), (by decide : (0 : Word) &&& maskReserved = 0)⟩
    · exact ⟨storeConfig_legal v, h.2⟩
  | mask => exact ⟨h.1, storeMask_reserved _ _⟩
  | limit => exact h
  | current => exact h
  | busVoltage => exact h
  | power => exact h
  | manufacturerId => exact h
  | dieId => exact h

theorem regRead_legal (s : State) (h : s.dev.legal) : (regRead r s).state.dev.legal := by
  unfold regRead
  split
  · simp only [state_err, State.logged_dev, State.withDevice_dev, atAccess_dev]
    split
    · exact afterRead_legal _ _ (evolve_legal _ h)
    · exact evolve_legal _ h
  · exact afterRead_legal _ _ (evolve_legal _ h)

theorem regWrite_legal (s : State) (h : s.dev.legal) : (regWrite r v s).state.dev.legal := by
  unfold regWrite
  split
  · simp only [state_err, State.logged_dev, State.withDevice_dev, atAccess_dev]
    split
    · exact afterWrite_legal _ _ (evolve_legal _ h)
    · exact evolve_legal _ h
  · exact afterWrite_legal _ _ (evolve_legal _ h)

theorem rmw_legal (m : Word) (s : State) (h : s.dev.legal) : (rmw r m v s).state.dev.legal :=
  bind_keeps (P := fun t => t.dev.legal) (regRead_legal r s h) fun _ _ _ ht => regWrite_legal _ _ _ ht

/-! ### RMW -/

/-- The relation of R71: what one access, or any sequence of accesses, leaves alone. -/
theorem accessOnly_trans (a b c : State) (h1 : a.accessOnly b) (h2 : b.accessOnly c) : a.accessOnly c := by
  obtain ⟨h11, h12, h13, h14, h15, h16, h17, h18, h19, h1n⟩ := h1
  obtain ⟨h21, h22, h23, h24, h25, h26, h27, h28, h29, h2n⟩ := h2
  exact ⟨h21.trans h11, h22.trans h12, h23.trans h13, h24.trans h14, h25.trans h15, h26.trans h16, h27.trans h17,
    h28.trans h18, h29.trans h19, h1n.trans h2n⟩

theorem rmw_accessOnly (m : Word) (s : State) : s.accessOnly (rmw r m v s).state :=
  bind_relates (R := State.accessOnly) accessOnly_trans (regRead_accessOnly s r) fun _ t _ => regWrite_accessOnly t _ _

/-- R56: an RMW whose two transactions succeed. -/
theorem rmw_of_ok (m : Word) (s : State) {d1 d2 : Draw} {rest : List Draw} (h : s.env = d1 :: d2 :: rest)
    (h1 : d1.fails = false) (h2 : d2.fails = false) :
    ∃ t, rmw r m v s = .ok () t ∧ s.accessOnly t ∧ t.env = rest ∧
      t.dev = (((s.dev.evolve d1).afterRead r d1).evolve d2).afterWrite r (mergeBits ((s.dev.evolve d1).get r) m v) ∧
      t.trace = s.trace ++ [.read r.addr ((s.dev.evolve d1).get r),
        .write r.addr (mergeBits ((s.dev.evolve d1).get r) m v)] := by
  have hk := rmw_accessOnly (r := r) (v := v) m s
  unfold rmw at hk ⊢
  rw [regRead_of_ok s r h h1] at hk ⊢
  rw [bind_ok] at hk ⊢
  rw [regWrite_of_ok _ r _ (d := d2) (l := rest) (by simp) h2] at hk ⊢
  exact ⟨_, rfl, hk, by simp, by simp, by simp⟩

/-- R72, U12: a read that fails: the stored registers stay; with no flag change by the device the flags stay too, or a
read of Mask/Enable has cleared them. -/
theorem regRead_fails (s : State) {d : Draw} {rest : List Draw} (r : DevReg) (h : s.env = d :: rest) (hd : d.fails = true) :
    ∃ t, regRead r s = .err (.transport r.addr false) t ∧ s.accessOnly t ∧ t.env = rest ∧
      (∀ q, t.dev.stored q = s.dev.stored q) ∧ t.trace = s.trace ++ [.readFailed r.addr] ∧
      (flagsQuiet d → if r = .mask then flagsOldOrRead s.dev.mask t.dev.mask d else t.dev.mask = s.dev.mask) := by
  have hk := regRead_accessOnly s r
  unfold regRead at hk ⊢
  rw [nextDraw_of_env s h] at hk ⊢
  simp only [hd, if_true, state_err] at hk ⊢
  refine ⟨_, rfl, hk, ?_, ?_, ?_, fun hq => ?_⟩
  · simp [State.atAccess, drop_of_env s h]
  · intro q
    simp only [State.logged_dev, State.withDevice_dev, atAccess_dev, nextDraw_of_env s h]
    split <;> simp
  · obtain ⟨b, n, l, k, _, he⟩ := atAccess_eq s
    simp [he]
  · simp only [State.logged_dev, State.withDevice_dev, atAccess_dev, nextDraw_of_env s h]
    split
    · rename_i hr
      subst hr
      split
      · rw [afterRead_mask, if_pos rfl, evolve_mask, ownFlags_quiet _ hq]
        exact .inr ⟨clearOnRead_flags _ _, clearOnRead_stored _ _⟩
      · exact .inl (ownFlags_quiet _ hq)
    · rename_i hr
      split
      · rw [afterRead_mask, if_neg hr, evolve_mask, ownFlags_quiet _ hq]
      · exact ownFlags_quiet _ hq

/-- R56, R72: an RMW whose read fails. -/
theorem rmw_of_readFails (m : Word) (s : State) {d1 : Draw} {rest : List Draw} (h : s.env = d1 :: rest)
    (h1 : d1.fails = true) :
    ∃ t, rmw r m v s = .err (.transport r.addr false) t ∧ s.accessOnly t ∧ t.env = rest ∧
      (∀ q, t.dev.stored q = s.dev.stored q) ∧ t.trace = s.trace ++ [.readFailed r.addr] ∧
      (flagsQuiet d1 → if r = .mask then flagsOldOrRead s.dev.mask t.dev.mask d1 else t.dev.mask = s.dev.mask) := by
  obtain ⟨t, ht, hk⟩ := regRead_fails s r h h1
  exact ⟨t, by unfold rmw; rw [ht, bind_err], hk⟩

/-- R56, R72: an RMW whose write fails. -/
theorem rmw_of_writeFails (m : Word) (s : State) {d1 d2 : Draw} {rest : List Draw} (h : s.env = d1 :: d2 :: rest)
    (h1 : d1.fails = false) (h2 : d2.fails = true) :
    ∃ t, rmw r m v s = .err (.transport r.addr true) t ∧ s.accessOnly t ∧ t.env = rest ∧
      (t.dev = ((s.dev.evolve d1).afterRead r d1).evolve d2 ∨
        t.dev = (((s.dev.evolve d1).afterRead r d1).evolve d2).afterWrite r
          (mergeBits ((s.dev.evolve d1).get r) m v)) ∧
      t.trace = s.trace ++ [.read r.addr ((s.dev.evolve d1).get r),
        .writeFailed r.addr (mergeBits ((s.dev.evolve d1).get r) m v)] := by
  have hk := rmw_accessOnly (r := r) (v := v) m s
  unfold rmw at hk ⊢
  rw [regRead_of_ok s r h h1] at hk ⊢
  simp only [bind_ok] at hk ⊢
  unfold regWrite at hk ⊢
  rw [nextDraw_of_env _ (d := d2) (r := rest) (by simp)] at hk ⊢
  simp only [h2, if_true, state_err] at hk ⊢
  refine ⟨_, rfl, hk, ?_, ?_, ?_⟩
  · simp only [State.logged_env, State.withDevice_env, State.atAccess, events_env]
    rw [drop_of_env _ (d := d2) (r := rest) (by simp)]
    rfl
  · simp only [State.logged_dev, State.withDevice_dev, atAccess_dev]
    rw [nextDraw_of_env _ (d := d2) (r := rest) (by simp)]
    split
    · exact .inr rfl
    · exact .inl rfl
  · simp [State.atAccess, State.drop]

/-! ### One access, in the terms of the statements -/

/-- R54: a read that the draw lets pass. -/
theorem regRead_succeeds (s : State) {d : Draw} {rest : List Draw} (r : DevReg) (h : s.env = d :: rest) (hd : d.fails = false) :
    ∃ t, regRead r s = .ok ((s.dev.evolve d).get r) t ∧ s.accessOnly t ∧ t.env = rest ∧ t.dev = (s.dev.evolve d).afterRead r d ∧
      t.trace = s.trace ++ [.read r.addr ((s.dev.evolve d).get r)] := by
  have hk := regRead_accessOnly s r
  rw [regRead_of_ok s r h hd] at hk ⊢
  exact ⟨_, rfl, hk, by simp, rfl, by simp⟩


/-- R55: a write that the draw lets pass. -/
theorem regWrite_succeeds (s : State) {d : Draw} {rest : List Draw} (r : DevReg) (v : Word) (h : s.env = d :: rest) (hd : d.fails = false) :
    ∃ t, regWrite r v s = .ok () t ∧ s.accessOnly t ∧ t.env = rest ∧ t.dev = (s.dev.evolve d).afterWrite r v ∧
      t.trace = s.trace ++ [.write r.addr v] := by
  have hk := regWrite_accessOnly s r v
  rw [regWrite_of_ok s r v h hd] at hk ⊢
  exact ⟨_, rfl, hk, by simp, rfl, by simp⟩

/-- R72: a write that fails. -/
theorem regWrite_fails (s : State) {d : Draw} {rest : List Draw} (r : DevReg) (v : Word) (h : s.env = d :: rest) (hd : d.fails = true) :
    ∃ t, regWrite r v s = .err (.transport r.addr true) t ∧ s.accessOnly t ∧ t.env = rest ∧ (t.dev = s.dev.evolve d ∨ t.dev = (s.dev.evolve d).afterWrite r v) ∧
      t.trace = s.trace ++ [.writeFailed r.addr v] := by
  have hk := regWrite_accessOnly s r v
  unfold regWrite at hk ⊢
  rw [nextDraw_of_env s h] at hk ⊢
  simp only [hd, if_true, state_err] at hk ⊢
  refine ⟨_, rfl, hk, ?_, ?_, ?_⟩
  · simp [State.atAccess, drop_of_env s h]
  · simp only [State.logged_dev, State.withDevice_dev, atAccess_dev, nextDraw_of_env s h]
    split <;> simp
  · obtain ⟨b, n, l, k, _, he⟩ := atAccess_eq s
    simp [he]

/-- What an operation made of accesses leaves alone, once it has answered with a result. -/
theorem frame_answered {s t : State} {rs : List DevReg} {res : Result} (h : s.accessOnly t)
    (hs : ∀ r, r ∉ rs → t.dev.stored r = s.dev.stored r) : frame s (t.answer res) rs := by
  obtain ⟨h1, _, h3, h4, h5, h6, h7, _, h9, hn⟩ := h
  exact ⟨⟨h1, h6, h7, h9⟩, h3, h4, h5, hn, hs⟩

/-- The same for an operation that also committed a shadow (R101). -/
theorem frame_committed {s t : State} {c : Shadow} {rs : List DevReg} {res : Result} (h : s.accessOnly t)
    (hs : ∀ r, r ∉ rs → t.dev.stored r = s.dev.stored r) : frame s ((t.withShadow c).answer res) rs := by
  obtain ⟨h1, _, h3, h4, h5, h6, h7, _, h9, hn⟩ := h
  exact ⟨⟨h1, h6, h7, h9⟩, h3, h4, h5, hn, hs⟩

/-- The same for an operation that raised an error (R247, R248). -/
theorem frame_raised {s t : State} {rs : List DevReg} {e : OpError} (h : s.accessOnly t) (hi : s.fsm = .idle)
    (hs : ∀ r, r ∉ rs → t.dev.stored r = s.dev.stored r) : frame s (t.raise e) rs := by
  obtain ⟨h1, _, _, h4, h5, h6, h7, _, h9, hn⟩ := h
  exact ⟨⟨h1, h6, h7, h9⟩, hi.symm, h4, h5, hn, hs⟩

end Sys2Proof.Machine
end

