-- ==== Sys2Proof/Laws/Setters.lean ====
section
/-! SUPPORT. What an RMW of one field of Configuration or of Mask/Enable leaves in the device (R56 to R58, R83, R86,
R109, R136). -/

namespace Sys2Proof.Machine

/-- The mask and the value of an RMW lie inside the fields of the register (R57, R83, R86). -/
abbrev fieldBits (r : DevReg) (m v : Word) : Prop :=
  (r = .config ∧ m &&& 0xF000 = 0 ∧ v &&& 0xF000 = 0) ∨ (r = .mask ∧ m &&& 0x03FC = 0 ∧ v &&& 0x03FC = 0)

/-- The device after an RMW whose two transactions succeed. -/
abbrev Device.afterRmw (d : Device) (r : DevReg) (m v : Word) (d1 d2 : Draw) : Device :=
  (((d.evolve d1).afterRead r d1).evolve d2).afterWrite r (mergeBits ((d.evolve d1).get r) m v)

variable {d : Device} {r : DevReg} {m v : Word} (d1 d2 : Draw)

theorem bit_of_and_zero {a b : Word} (h : a &&& b = 0) (i : Nat) (hi : i < 16) : (a[i] && b[i]) = false := by
  have := congrArg (fun w : Word => w[i]) h
  simpa using this

theorem storedMask_merge (o : Word) (hm : m &&& 0x03FC = 0) (hv : v &&& 0x03FC = 0) :
    storedMask (mergeBits o m v) = (storedMask o &&& ~~~m) ||| v := by
  unfold storedMask mergeBits
  ext i hi
  have h1 := bit_of_and_zero hm i hi
  have h2 := bit_of_and_zero hv i hi
  have : i = 0 ∨ i = 1 ∨ i = 2 ∨ i = 3 ∨ i = 4 ∨ i = 5 ∨ i = 6 ∨ i = 7 ∨ i = 8 ∨ i = 9 ∨ i = 10 ∨ i = 11 ∨ i = 12 ∨
      i = 13 ∨ i = 14 ∨ i = 15 := by omega
  rcases this with h | h | h | h | h | h | h | h | h | h | h | h | h | h | h | h <;> subst h <;> simp_all

/-- R109, R136: the field holds the new content and every other stored bit of the register is as it was. -/
theorem afterRmw_stored (hd : d.legal) (h : fieldBits r m v) :
    (d.afterRmw r m v d1 d2).stored r = (d.stored r &&& ~~~m) ||| v := by
  rcases h with ⟨rfl, hm, hv⟩ | ⟨rfl, hm, hv⟩
  · have hl := mergeBits_legal (old := d.config) hd.1 hm hv
    show (Device.afterWrite _ .config (mergeBits d.config m v)).config = _
    rw [afterWrite_config _ _ (legal_bit15 hl), storeConfig_of_legal hl]
    rfl
  · show storedMask (storeMask _ (mergeBits (ownFlags d.mask d1) m v)) = _
    rw [storeMask_storedMask]
    show storedMask (mergeBits (ownFlags d.mask d1) m v) = _
    rw [storedMask_merge _ hm hv, ownFlags_storedMask]
    rfl

/-- An RMW changes no other register's stored bits. -/
theorem afterRmw_stored_other (hd : d.legal) (h : fieldBits r m v) (q : DevReg) (hq : q ≠ r) :
    (d.afterRmw r m v d1 d2).stored q = d.stored q := by
  unfold Device.afterRmw
  rw [afterWrite_stored_other _ _ _ _ _ hq, evolve_stored, afterRead_stored, evolve_stored]
  intro hr
  rcases h with ⟨rfl, hm, hv⟩ | ⟨rfl, _, _⟩
  · exact legal_bit15 (mergeBits_legal (old := d.config) hd.1 hm hv)
  · cases hr

/-- With no flag change by the device, an RMW on Configuration leaves Mask/Enable, flags and all. -/
theorem afterRmw_config_mask (hd : d.legal) (h : fieldBits .config m v) (q1 : flagsQuiet d1) (q2 : flagsQuiet d2) :
    (d.afterRmw .config m v d1 d2).mask = d.mask := by
  rcases h with ⟨_, hm, hv⟩ | ⟨h, _, _⟩
  · show (Device.afterWrite _ .config (mergeBits d.config m v)).mask = _
    rw [afterWrite_config_mask _ _ (legal_bit15 (mergeBits_legal (old := d.config) hd.1 hm hv))]
    simp [Device.afterRead, Device.addressed, ownFlags_quiet _ q1, ownFlags_quiet _ q2]
  · cases h

/-- R60, R61, R58: with no flag change by the device, an RMW on Mask/Enable leaves the flags as its read half did. -/
theorem afterRmw_mask_flags (q1 : flagsQuiet d1) (q2 : flagsQuiet d2) :
    flagsAfterRead d.mask (d.afterRmw .mask m v d1 d2).mask d1 := by
  have e : (d.afterRmw .mask m v d1 d2).mask &&& 0x001C = clearOnRead d.mask d1 &&& 0x001C := by
    show storeMask (ownFlags (clearOnRead (ownFlags d.mask d1) d1) d2) _ &&& 0x001C = _
    rw [storeMask_flags, ownFlags_quiet _ q2, ownFlags_quiet _ q1]
  have b : ∀ i (hi : i < 16), (0x001C : Word)[i] = true →
      (d.afterRmw .mask m v d1 d2).mask.getLsbD i = (clearOnRead d.mask d1).getLsbD i := by
    intro i hi hb
    have := congrArg (fun w : Word => w[i]) e
    rw [BitVec.getLsbD_eq_getElem hi, BitVec.getLsbD_eq_getElem hi]
    simpa only [BitVec.getElem_and, hb, Bool.and_true] using this
  obtain ⟨c, o, a⟩ := clearOnRead_flags d.mask d1
  exact ⟨(b 3 (by omega) (by decide)).trans c, (b 2 (by omega) (by decide)).trans o, (b 4 (by omega) (by decide)).trans a⟩

/-- R56: an RMW of a field whose two transactions succeed: what it read, what it left, and its two entries in the bus
trace. -/
theorem rmw_field (s : State) {rest : List Draw} (hl : s.dev.legal) (h : fieldBits r m v) {d1 d2 : Draw}
    (he : s.env = d1 :: d2 :: rest) (f1 : d1.fails = false) (f2 : d2.fails = false) :
    ∃ t old, rmw r m v s = .ok () t ∧ s.accessOnly t ∧ t.env = rest ∧ t.dev.legal ∧
      t.dev.stored r = (s.dev.stored r &&& ~~~m) ||| v ∧ (∀ q, q ≠ r → t.dev.stored q = s.dev.stored q) ∧
      t.trace = s.trace ++ [.read r.addr old, .write r.addr (mergeBits old m v)] ∧
      (r = .config → old = s.dev.config) ∧ (r = .mask → storedMask old = s.dev.stored .mask) := by
  obtain ⟨t, ht, ha, hen, hd, htr⟩ := rmw_of_ok r v m s he f1 f2
  have hlegal := rmw_legal r v m s hl
  rw [ht] at hlegal
  refine ⟨t, _, ht, ha, hen, hlegal, ?_, fun q hq => ?_, htr, ?_, ?_⟩
  · rw [hd]; exact afterRmw_stored d1 d2 hl h
  · rw [hd]; exact afterRmw_stored_other d1 d2 hl h q hq
  · rintro rfl; rfl
  · rintro rfl; exact ownFlags_storedMask _ _

/-- R72: an RMW of a field whose write fails: the register holds the old or the new content. -/
theorem rmw_field_writeFails (s : State) {rest : List Draw} (hl : s.dev.legal) (h : fieldBits r m v) {d1 d2 : Draw}
    (he : s.env = d1 :: d2 :: rest) (f1 : d1.fails = false) (f2 : d2.fails = true) :
    ∃ t, rmw r m v s = .err (.transport r.addr true) t ∧ s.accessOnly t ∧ t.env = rest ∧
      (t.dev.stored r = s.dev.stored r ∨ t.dev.stored r = (s.dev.stored r &&& ~~~m) ||| v) ∧
      (∀ q, q ≠ r → t.dev.stored q = s.dev.stored q) ∧
      (∃ old, t.trace = s.trace ++ [.read r.addr old, .writeFailed r.addr (mergeBits old m v)]) ∧
      (flagsQuiet d1 → flagsQuiet d2 →
        if r = .mask then flagsAfterRead s.dev.mask t.dev.mask d1 else t.dev.mask = s.dev.mask) := by
  obtain ⟨t, ht, ha, hen, hd, htr⟩ := rmw_of_writeFails r v m s he f1 f2
  refine ⟨t, ht, ha, hen, ?_, fun q hq => ?_, ⟨_, htr⟩, fun q1 q2 => ?_⟩
  · rcases hd with hd | hd <;> rw [hd]
    · exact .inl (by simp)
    · exact .inr (afterRmw_stored d1 d2 hl h)
  · rcases hd with hd | hd <;> rw [hd]
    · simp
    · exact afterRmw_stored_other d1 d2 hl h q hq
  · rcases h with ⟨rfl, hm, hv⟩ | ⟨rfl, hm, hv⟩ <;> rcases hd with hd | hd <;> rw [hd]
    · rw [if_neg (by decide), evolve_mask, ownFlags_quiet _ q2, afterRead_mask, if_neg (by decide), evolve_mask,
        ownFlags_quiet _ q1]
    · exact afterRmw_config_mask d1 d2 hl (.inl ⟨rfl, hm, hv⟩) q1 q2
    · rw [if_pos rfl, evolve_mask, ownFlags_quiet _ q2, afterRead_mask, if_pos rfl, evolve_mask, ownFlags_quiet _ q1]
      exact clearOnRead_flags _ _
    · exact afterRmw_mask_flags d1 d2 q1 q2

end Sys2Proof.Machine
end

