-- ==== Sys2Proof/Laws/Operations.lean ====
section
/-! SUPPORT. One induction over everything an operation can do: a relation between states that the accesses, the
environment and the block's own register updates all keep is kept by every operation. -/

namespace Sys2Proof.Machine

/-- A relation kept by what a reading operation is made of. -/
structure ReadClosed (R : State → State → Prop) : Prop where
  refl : ∀ s, R s s
  trans : ∀ {a b c}, R a b → R b c → R a c
  read : ∀ s r, R s (regRead r s).state
  env : ∀ {s t : State}, s.environmentOnly t → R s t
  fsm : ∀ s x, R s (s.withFsm x)
  wait : ∀ s x, R s (s.withWait x)
  response : ∀ s x, R s (s.withResponse x)

/-- A relation kept by what any operation is made of. A shadow is committed only if it is legal when the one before is. -/
structure Closed (R : State → State → Prop) : Prop extends ReadClosed R where
  write : ∀ s r v, R s (regWrite r v s).state
  peak : ∀ s x, R s (s.withPeak x)
  shadow : ∀ s x, (s.sh.legal → Shadow.legal x) → R s (s.withShadow x)

namespace ReadClosed

variable {R : State → State → Prop} (h : ReadClosed R)
include h

theorem bind {α β : Type} {s : State} {r : Res α} {f : α → State → Res β} (hr : R s r.state)
    (hf : ∀ a t, r = .ok a t → R t (f a t).state) : R s (r.bind f).state :=
  bind_relates (R := R) (fun _ _ _ => h.trans) hr hf

theorem answered {s : State} {r : Res Result} (hr : R s r.state) : R s r.answered := by
  cases r with
  | ok a t => exact h.trans hr (h.response t _)
  | err e t => exact h.trans hr (h.trans (h.fsm t _) (h.response _ _))

theorem pause (s : State) : R s s.pause := h.env (pause_environmentOnly s)

theorem drop (s : State) : R s s.drop := by
  obtain ⟨l, n, hd⟩ := drop_eq s
  rw [hd]
  exact h.env ⟨s.alertN, s.now, l, n, Nat.le_refl _, rfl⟩

theorem withAlert (s : State) (b : Bool) : R s (s.withAlert b) :=
  h.env ⟨b, s.now, s.env, s.tick, Nat.le_refl _, rfl⟩

theorem withNow (s : State) {n : Nat} (hn : s.now ≤ n) : R s (s.withNow n) :=
  h.env ⟨s.alertN, n, s.env, s.tick, hn, rfl⟩

theorem settled {s t : State} (ht : R s t) : R s (Res.settled t).state := h.trans ht (h.fsm t _)

theorem runOut (s : State) : R s s.runOut := h.trans (h.withNow s (Nat.le_max_left _ _)) (h.fsm _ _)

theorem urgent {tie : Bool} {s t : State} (ht : s.urgent tie = some t) : R s t := by
  unfold State.urgent at ht
  split at ht
  · cases ht; exact h.fsm s _
  · split at ht
    · cases ht; exact h.fsm s _
    · cases ht

theorem armedRun (tie : Bool) (l : List EnvEvent) (s : State) : R s (armedRun tie l s) := by
  induction l generalizing s with
  | nil =>
    unfold Sys2Proof.Machine.armedRun
    split
    · exact h.urgent (by assumption)
    · exact h.runOut s
  | cons e r ih =>
    cases e with
    | line b =>
      unfold Sys2Proof.Machine.armedRun
      split
      · exact h.urgent (by assumption)
      · exact h.trans (h.trans (h.wait s _) (h.withAlert _ b)) (ih _)
    | time d =>
      unfold Sys2Proof.Machine.armedRun
      split
      · exact h.urgent (by assumption)
      · split
        · exact h.runOut s
        · exact h.trans (h.withNow s (Nat.le_add_right _ _)) (ih _)

theorem edgeWait (tmo : Nat) (s : State) : R s (edgeWait tmo s) :=
  h.trans (h.drop s) (h.trans (h.trans (h.wait _ _) (h.fsm _ _)) (h.armedRun _ _ _))

theorem waitEdgeFor (tmo : Nat) (s : State) : R s (waitEdgeFor tmo s).state := by
  unfold Sys2Proof.Machine.waitEdgeFor
  split
  · exact h.settled (h.trans (h.pause s) (h.edgeWait tmo _))
  · exact h.refl s

theorem pollLoop (n : Nat) (s : State) : R s (pollLoop n s).state := by
  induction n generalizing s with
  | zero => exact h.settled (h.fsm s _)
  | succ n ih =>
    unfold Sys2Proof.Machine.pollLoop
    refine h.bind (h.read s _) fun me t _ => ?_
    split
    · exact h.settled (h.fsm t _)
    · split
      · exact h.settled (h.fsm t _)
      · exact h.trans (h.withNow t (Nat.le_add_right _ _)) (ih _)

theorem waitFlagFor (tmo : Nat) (s : State) : R s (waitFlagFor tmo s).state :=
  h.trans (h.trans (h.wait s _) (h.fsm _ _)) (h.pollLoop _ _)

theorem readFlag (sel : Nat) (s : State) : R s (readFlag sel s).state := by
  unfold Sys2Proof.Machine.readFlag
  split
  · exact h.refl s
  · exact h.bind (h.read s _) fun _ t _ => h.refl t

theorem readVolts (s : State) : R s (readVolts s).state := h.bind (h.read s _) fun _ t _ => h.refl t

theorem readAmps (s : State) : R s (readAmps s).state := h.bind (h.read s _) fun _ t _ => h.refl t

theorem readWatts (s : State) : R s (readWatts s).state := h.bind (h.read s _) fun _ t _ => h.refl t

theorem getLimit (s : State) : R s (getLimit s).state := by
  unfold Sys2Proof.Machine.getLimit
  split
  · exact h.refl s
  · exact h.bind (h.read s _) fun _ t _ => h.refl t

theorem readRegister (a : Byte) (s : State) : R s (readRegister a s).state := by
  unfold Sys2Proof.Machine.readRegister
  split
  · exact h.refl s
  · exact h.read s _

theorem checkIdentity (s : State) : R s (checkIdentity s).state :=
  h.bind (h.read s _) fun _ t _ => h.bind (h.read t _) fun _ u _ => h.refl u

theorem ofExcept {α : Type} (x : Except OpError α) (s : State) : R s (Res.ofExcept x s).state := by
  cases x <;> exact h.refl s

/-- A part that only reshapes the value of the part before. -/
theorem reshaped {α β : Type} {s : State} {r : Res α} (f : α → β) (hr : R s r.state) :
    R s (r.bind fun a t => .ok (f a) t).state := h.bind hr fun _ t _ => h.refl t

/-- The loop of WAIT_PEAK writes nothing but its window (R205). -/
theorem peakLoop (hw : ∀ s v, R s (s.pushSample v)) (tmo : Nat) (thr : Rat) (n : Nat) (s : State) :
    R s (peakLoop tmo thr n s).state := by
  induction n generalizing s with
  | zero => exact h.refl s
  | succ n ih =>
    unfold Sys2Proof.Machine.peakLoop
    split
    · exact h.refl s
    · refine h.trans (h.pause s) (h.bind (h.waitEdgeFor _ _) fun r t _ => h.bind (h.read t _) fun _ u _ => ?_)
      split
      · refine h.bind (h.readVolts u) fun v x _ => ?_
        split
        · exact hw x v
        · exact h.trans (hw x v) (ih _)
      · exact ih u

end ReadClosed

/-- R24, R130: the collapsed mask of recognized sources has at most one functional source. -/
theorem oneFunctional_collapse {l : List Nat} (hl : ∀ c ∈ l, c ≤ 5) : oneFunctional (collapse l) = true := by
  have hm : ∀ (f : List Nat) (a : Nat), (∀ c ∈ f, c ≤ 5) → a ≤ 5 → f.foldl max a ≤ 5 := by
    intro f
    induction f with
    | nil => intro a _ ha; exact ha
    | cons x f ih =>
      intro a hf ha
      have hx := hf x (by simp)
      exact ih _ (fun c hc => hf c (by simp [hc])) (by omega)
  have hk : ∀ k ≤ 5, ∀ c ∈ [(0 : BitVec 6), 1], oneFunctional (BitVec.ofNat 6 (1 <<< k) ||| c) = true := by decide
  unfold collapse
  generalize hc : (if 0 ∈ l then 1 else 0 : BitVec 6) = c
  have hc' : c ∈ [(0 : BitVec 6), 1] := by rw [← hc]; split <;> simp
  dsimp only
  split
  · revert hc'; clear hc; revert c; decide
  · exact hk _ (hm _ _ (fun x hx => hl x (List.mem_filter.mp hx).1) (by decide)) c hc'

theorem firstUnrecognized_none {l : List Nat} (h : firstUnrecognized l = none) : ∀ c ∈ l, c ≤ 5 := by
  intro c hc
  have := List.find?_eq_none.mp h c hc
  simpa using this

namespace Closed

variable {R : State → State → Prop} (h : Closed R)
include h

theorem rmw (r : DevReg) (m v : Word) (s : State) : R s (rmw r m v s).state :=
  h.bind (h.read s _) fun _ t _ => h.write t _ _

/-- One RMW and its commit. -/
theorem commit (r : DevReg) (m v : Word) (c : Shadow → Shadow) (hc : ∀ x : Shadow, x.legal → (c x).legal) (s : State) :
    R s ((Machine.rmw r m v s).bind fun _ t => .ok () (t.withShadow (c t.sh))).state :=
  h.bind (h.rmw r m v s) fun _ t _ => h.shadow t _ (hc t.sh)

theorem setAvg (count : Nat) (s : State) : R s (setAvg count s).state := by
  unfold Machine.setAvg
  split
  · exact h.commit _ _ _ (fun x => { x with avg := count }) (fun x hx => ⟨by assumption, hx.2⟩) s
  · exact h.refl s

theorem setCt (sel us : Nat) (s : State) : R s (setCt sel us s).state := by
  unfold Machine.setCt
  split
  · exact h.refl s
  · split
    · split
      · exact h.commit _ _ _ (fun x => { x with vbusct := us }) (fun x hx => ⟨hx.1, by assumption, hx.2.2⟩) s
      · exact h.commit _ _ _ (fun x => { x with ishct := us }) (fun x hx => ⟨hx.1, hx.2.1, by assumption, hx.2.2.2⟩) s
    · exact h.refl s

theorem setCont (b : Bool) (s : State) : R s (setCont b s).state :=
  h.commit _ _ _ (fun x => { x with cont := b }) (fun _ hx => hx) s

theorem setMeasV (b : Bool) (s : State) : R s (setMeasV b s).state :=
  h.commit _ _ _ (fun x => { x with mv := b }) (fun _ hx => hx) s

theorem setMeasI (b : Bool) (s : State) : R s (setMeasI b s).state :=
  h.commit _ _ _ (fun x => { x with mc := b }) (fun _ hx => hx) s

theorem setMode (c v i : Bool) (s : State) : R s (setMode c v i s).state :=
  h.bind (h.setCont c s) fun _ t _ => h.bind (h.setMeasV v t) fun _ u _ => h.setMeasI i u

theorem setAlertSources (l : List Nat) (s : State) : R s (setAlertSources l s).state := by
  unfold Machine.setAlertSources
  split
  · exact h.refl s
  · rename_i hn
    exact h.commit _ _ _ (fun x => { x with amask := collapse l })
      (fun x hx => ⟨hx.1, hx.2.1, hx.2.2.1, oneFunctional_collapse (firstUnrecognized_none hn)⟩) s

theorem setApol (b : Bool) (s : State) : R s (setApol b s).state :=
  h.commit _ _ _ (fun x => { x with apol := b }) (fun _ hx => hx) s

theorem writeLatch (b : Bool) (s : State) : R s (writeLatch b s).state :=
  h.commit _ _ _ (fun x => { x with latch := b }) (fun _ hx => hx) s

theorem setLatch (b : Bool) (s : State) : R s (setLatch b s).state := by
  refine h.bind (h.writeLatch false s) fun _ t _ => ?_
  split
  · exact h.writeLatch true t
  · exact h.refl t

theorem setLimit (x : Rat) (s : State) : R s (setLimit x s).state := by
  unfold Machine.setLimit
  split
  · exact h.refl s
  · exact h.bind (h.ofExcept _ s) fun _ t _ => h.write t _ _

theorem resetDevice (s : State) : R s (resetDevice s).state :=
  h.bind (h.write s _ _) fun _ t _ => h.shadow t _ fun _ => by decide

theorem peakOverride (s : State) : R s (peakOverride s).state :=
  h.bind (h.setAvg _ s) fun _ _ _ => h.bind (h.setCt _ _ _) fun _ _ _ => h.bind (h.setCt _ _ _) fun _ _ _ =>
    h.bind (h.setMode _ _ _ _) fun _ _ _ => h.setAlertSources _ _

theorem peakRestore (x : Saved) (s : State) : R s (peakRestore x s).state :=
  h.bind (h.setAvg _ s) fun _ _ _ => h.bind (h.setCt _ _ _) fun _ _ _ => h.bind (h.setCt _ _ _) fun _ _ _ =>
    h.bind (h.setMode _ _ _ _) fun _ _ _ => h.setAlertSources _ _

theorem waitPeakFor (tmo : Nat) (thr : Rat) (s : State) : R s (waitPeakFor tmo thr s).state := by
  unfold Machine.waitPeakFor
  split
  · refine h.trans (h.peak s _) (h.bind (h.peakOverride _) fun _ t _ => h.bind (h.peakLoop (fun s _ => h.peak s _) _ _ _ t) fun f u _ =>
      h.bind (h.peakRestore _ u) fun _ v _ => ?_)
    split <;> exact h.refl v
  · exact h.refl s

/-- Every operation keeps the relation. -/
theorem exec {i : Instr} {s t : State} (ht : exec i s = .next t) : R s t := by
  have hu : ∀ {r : Res Unit}, R s r.state → R s (r.unit).answered := fun hr => h.answered (h.reshaped (fun _ : Unit => Result.none) hr)
  cases i with
  | setAvg count => cases ht; exact hu (h.setAvg _ s)
  | setCt sel us => cases ht; exact hu (h.setCt _ _ s)
  | setCont b => cases ht; exact hu (h.setCont b s)
  | setMeasv b => cases ht; exact hu (h.setMeasV b s)
  | setMeasi b => cases ht; exact hu (h.setMeasI b s)
  | setMode c v m => cases ht; exact hu (h.setMode c v m s)
  | getCfg => cases ht; exact h.response s _
  | setAlertSrc a b c d e f => cases ht; exact hu (h.setAlertSources _ s)
  | getAlert => cases ht; exact h.response s _
  | setApol b => cases ht; exact hu (h.setApol b s)
  | setLatch b => cases ht; exact hu (h.setLatch b s)
  | readFlag sel => cases ht; exact h.answered (h.reshaped Result.bit (h.readFlag _ s))
  | raw2v raw => cases ht; exact h.response s _
  | raw2i raw => cases ht; exact h.response s _
  | raw2p raw => cases ht; exact h.response s _
  | v2raw => cases ht; exact h.answered (h.reshaped (fun p : Word × Rat => Result.count p.1 p.2) (h.ofExcept _ s))
  | i2raw => cases ht; exact h.answered (h.reshaped (fun p : Word × Rat => Result.count p.1 p.2) (h.ofExcept _ s))
  | p2raw => cases ht; exact h.answered (h.reshaped (fun p : Word × Rat => Result.count p.1 p.2) (h.ofExcept _ s))
  | readV => cases ht; exact h.answered (h.reshaped Result.quantity (h.readVolts s))
  | readI => cases ht; exact h.answered (h.reshaped Result.quantity (h.readAmps s))
  | readP => cases ht; exact h.answered (h.reshaped Result.quantity (h.readWatts s))
  | setAlertLimit => cases ht; exact hu (h.setLimit _ s)
  | getAlertLimit => cases ht; exact h.answered (h.reshaped Result.quantity (h.getLimit s))
  | autoTmo => cases ht; exact h.response s _
  | waitEdge a => cases ht; exact h.answered (h.reshaped Result.bit (h.waitEdgeFor _ s))
  | waitFlag a => cases ht; exact h.answered (h.reshaped Result.bit (h.waitFlagFor _ s))
  | waitPeak a => cases ht; exact h.answered (h.waitPeakFor _ _ s)
  | reset => cases ht; exact hu (h.resetDevice s)
  | rdReg sel => cases ht; exact h.answered (h.reshaped Result.word (h.readRegister _ s))
  | checkId => cases ht; exact h.answered (h.checkIdentity s)

end Closed

end Sys2Proof.Machine
end

