-- ==== Sys2Proof/Laws/PerInstr.lean ====
section
/-! SUPPORT. The laws stated per instruction. -/

namespace Sys2Proof.Laws

/-- Bits 31:24 of an encoded operation are its opcode in R92's map. -/
def EncodedOpcode.Statement (i : Instr) : Prop := opcodeField (encode i) = i.opcode

theorem EncodedOpcode.setAvg (count : BitVec 16) : EncodedOpcode.Statement (.setAvg count) := opcodeField_encodeI _ _
theorem EncodedOpcode.setCt (sel : BitVec 8) (us : BitVec 16) : EncodedOpcode.Statement (.setCt sel us) := opcodeField_encodeSI _ _ _
theorem EncodedOpcode.setCont (b : Bool) : EncodedOpcode.Statement (.setCont b) := opcodeField_encodeB _ _
theorem EncodedOpcode.setMeasv (b : Bool) : EncodedOpcode.Statement (.setMeasv b) := opcodeField_encodeB _ _
theorem EncodedOpcode.setMeasi (b : Bool) : EncodedOpcode.Statement (.setMeasi b) := opcodeField_encodeB _ _
theorem EncodedOpcode.setMode (c v i : Bool) : EncodedOpcode.Statement (.setMode c v i) := opcodeField_encodeM _ _ _ _
theorem EncodedOpcode.getCfg : EncodedOpcode.Statement (.getCfg) := opcodeField_encodeN _
theorem EncodedOpcode.setAlertSrc (a b c d e f : BitVec 4) : EncodedOpcode.Statement (.setAlertSrc a b c d e f) := opcodeField_encodeL _ _ _ _ _ _ _
theorem EncodedOpcode.getAlert : EncodedOpcode.Statement (.getAlert) := opcodeField_encodeN _
theorem EncodedOpcode.setApol (b : Bool) : EncodedOpcode.Statement (.setApol b) := opcodeField_encodeB _ _
theorem EncodedOpcode.setLatch (b : Bool) : EncodedOpcode.Statement (.setLatch b) := opcodeField_encodeB _ _
theorem EncodedOpcode.readFlag (sel : BitVec 8) : EncodedOpcode.Statement (.readFlag sel) := opcodeField_encodeS _ _
theorem EncodedOpcode.raw2v (raw : BitVec 16) : EncodedOpcode.Statement (.raw2v raw) := opcodeField_encodeI _ _
theorem EncodedOpcode.raw2i (raw : BitVec 16) : EncodedOpcode.Statement (.raw2i raw) := opcodeField_encodeI _ _
theorem EncodedOpcode.raw2p (raw : BitVec 16) : EncodedOpcode.Statement (.raw2p raw) := opcodeField_encodeI _ _
theorem EncodedOpcode.v2raw : EncodedOpcode.Statement (.v2raw) := opcodeField_encodeN _
theorem EncodedOpcode.i2raw : EncodedOpcode.Statement (.i2raw) := opcodeField_encodeN _
theorem EncodedOpcode.p2raw : EncodedOpcode.Statement (.p2raw) := opcodeField_encodeN _
theorem EncodedOpcode.readV : EncodedOpcode.Statement (.readV) := opcodeField_encodeN _
theorem EncodedOpcode.readI : EncodedOpcode.Statement (.readI) := opcodeField_encodeN _
theorem EncodedOpcode.readP : EncodedOpcode.Statement (.readP) := opcodeField_encodeN _
theorem EncodedOpcode.setAlertLimit : EncodedOpcode.Statement (.setAlertLimit) := opcodeField_encodeN _
theorem EncodedOpcode.getAlertLimit : EncodedOpcode.Statement (.getAlertLimit) := opcodeField_encodeN _
theorem EncodedOpcode.autoTmo : EncodedOpcode.Statement (.autoTmo) := opcodeField_encodeN _
theorem EncodedOpcode.waitEdge (a : Bool) : EncodedOpcode.Statement (.waitEdge a) := opcodeField_encodeB _ _
theorem EncodedOpcode.waitFlag (a : Bool) : EncodedOpcode.Statement (.waitFlag a) := opcodeField_encodeB _ _
theorem EncodedOpcode.waitPeak (a : Bool) : EncodedOpcode.Statement (.waitPeak a) := opcodeField_encodeB _ _
theorem EncodedOpcode.reset : EncodedOpcode.Statement (.reset) := opcodeField_encodeN _
theorem EncodedOpcode.rdReg (sel : BitVec 8) : EncodedOpcode.Statement (.rdReg sel) := opcodeField_encodeS _ _
theorem EncodedOpcode.checkId : EncodedOpcode.Statement (.checkId) := opcodeField_encodeN _

end Sys2Proof.Laws
end

