-- ==== Sys2Proof/Laws/Synchronizer.lean ====
section
/-! SUPPORT. What the small steps of an armed wait can do (R193, R196): the line, the time base, the level and edge
registers and the state of the wait primitive move, and nothing else. -/

namespace Sys2Proof.Machine

/-- From `s` to `t` only an armed wait went on: the line, time (forward), `w.prev`, `w.edge` and `fsm`. -/
abbrev State.waitOnly (s t : State) : Prop :=
  ∃ b n prev edge f, s.now ≤ n ∧
    t = (((s.withAlert b).withNow n).withWait { s.w with prev := prev, edge := edge }).withFsm f

theorem waitOnly_trans {s t u : State} (h1 : s.waitOnly t) (h2 : t.waitOnly u) : s.waitOnly u := by
  obtain ⟨b, n, p, e, f, hn, rfl⟩ := h1
  obtain ⟨b', n', p', e', f', hn', rfl⟩ := h2
  exact ⟨b', n', p', e', f', Nat.le_trans hn hn', rfl⟩

theorem signal_waitOnly (s : State) : s.waitOnly s.signal := ⟨_, _, _, _, _, Nat.le_refl _, rfl⟩
theorem expire_waitOnly (s : State) : s.waitOnly s.expire := ⟨_, _, _, _, _, Nat.le_refl _, rfl⟩
theorem onLine_waitOnly (s : State) (l : Bool) : s.waitOnly (s.onLine l) :=
  ⟨l, s.now, l, s.w.edge || (s.w.prev && !l), s.fsm, Nat.le_refl _, rfl⟩
theorem runOut_waitOnly (s : State) : s.waitOnly s.runOut := ⟨_, _, _, _, _, Nat.le_max_left _ _, rfl⟩
theorem withNow_waitOnly (s : State) {n : Nat} (h : s.now ≤ n) : s.waitOnly (s.withNow n) :=
  ⟨_, n, _, _, s.fsm, h, rfl⟩

/-- The urgent step, if one fires, is SIGNAL or EXPIRE (R196). -/
theorem urgent_cases {tie : Bool} {s t : State} (h : s.urgent tie = some t) :
    (t = s.signal ∧ s.w.edge = true ∧ (s.expired = true → tie = true)) ∨
    (t = s.expire ∧ s.expired = true ∧ tie = false) := by
  unfold State.urgent at h
  split at h
  · rename_i hc
    cases h
    refine .inl ⟨rfl, ?_, ?_⟩ <;> revert hc <;> cases s.w.edge <;> cases tie <;> cases s.expired <;> decide
  · split at h
    · rename_i hc
      cases h
      refine .inr ⟨rfl, ?_, ?_⟩ <;> revert hc <;> cases tie <;> cases s.expired <;> decide
    · cases h

/-- An armed wait ends Signaled or TimedOut, and moves nothing but what `State.waitOnly` says. -/
theorem armedRun_ends (tie : Bool) (l : List EnvEvent) (s : State) :
    s.waitOnly (armedRun tie l s) ∧ ((armedRun tie l s).fsm = .signaled ∨ (armedRun tie l s).fsm = .timedOut) := by
  have fires : ∀ {s t : State}, s.urgent tie = some t → s.waitOnly t ∧ (t.fsm = .signaled ∨ t.fsm = .timedOut) := by
    intro s t h
    obtain ⟨rfl, _⟩ | ⟨rfl, _⟩ := urgent_cases h
    · exact ⟨signal_waitOnly s, .inl rfl⟩
    · exact ⟨expire_waitOnly s, .inr rfl⟩
  induction l generalizing s with
  | nil =>
    unfold armedRun
    split
    · rename_i h
      exact fires h
    · exact ⟨runOut_waitOnly s, .inr rfl⟩
  | cons e r ih =>
    cases e with
    | line b =>
      unfold armedRun
      split
      · rename_i h
        exact fires h
      · exact ⟨waitOnly_trans (onLine_waitOnly s b) (ih _).1, (ih _).2⟩
    | time d =>
      unfold armedRun
      split
      · rename_i h
        exact fires h
      · split
        · exact ⟨runOut_waitOnly s, .inr rfl⟩
        · exact ⟨waitOnly_trans (withNow_waitOnly s (Nat.le_add_right _ _)) (ih _).1, (ih _).2⟩

/-- An edge that falls is never earlier than the time the search starts at (R195). -/
theorem firstFall_ge {l : List EnvEvent} {p : Bool} {t k : Nat} (h : firstFall p t l = some k) : t ≤ k := by
  induction l generalizing p t with
  | nil => cases h
  | cons e r ih =>
    cases e with
    | line b =>
      unfold firstFall at h
      split at h
      · cases h
        exact Nat.le_refl _
      · exact ih h
    | time d => exact Nat.le_trans (Nat.le_add_right _ _) (ih h)

/-- An automatic timeout is never under a millisecond (R190). -/
theorem autoTimeout_ge (sh : Shadow) : 1000 ≤ autoTimeout sh := Nat.le_max_left _ _

/-! ### The loop of WAIT_PEAK ends by its timeout, not by its fuel (R206, log 17) -/

/-- From `s` to `t` no draw was put back into the script, time did not go back, and the start of WAIT_PEAK stands. -/
abbrev State.spends (s t : State) : Prop := t.env.length ≤ s.env.length ∧ s.now ≤ t.now ∧ t.p.tStart = s.p.tStart

theorem spends_trans {s t u : State} (h : s.spends t) (g : t.spends u) : s.spends u :=
  ⟨Nat.le_trans g.1 h.1, Nat.le_trans h.2.1 g.2.1, g.2.2.trans h.2.2⟩

theorem pause_spends (s : State) : s.spends s.pause :=
  ⟨(List.length_tail ▸ Nat.sub_le _ _ : s.env.tail.length ≤ s.env.length), pause_now_le s, rfl⟩

/-- A gap takes a draw of the script, or, past its end, at least a microsecond. -/
theorem pause_takes (s : State) : s.pause.env.length < s.env.length ∨ s.now < s.pause.now := by
  cases h : s.env with
  | cons d r =>
    rw [pause_env_of_cons s h]
    exact .inl (Nat.lt_succ_self _)
  | nil =>
    obtain ⟨l, hl⟩ := nextDraw_of_nil s h
    right
    show s.now < s.now + elapsed s.nextDraw.events
    rw [hl, elapsed_time]
    omega

theorem regRead_spends (s : State) (r : DevReg) : s.spends (regRead r s).state := by
  unfold regRead
  split <;> exact pause_spends s

theorem edgeWait_spends (n : Nat) (s : State) : s.spends (edgeWait n s) := by
  unfold edgeWait
  generalize s.nextDraw.tie = tie
  generalize s.nextDraw.events = l
  obtain ⟨b, m, q, e, f, hm, h⟩ := (armedRun_ends tie l (s.drop.armEdge n)).1
  rw [h]
  simp only [State.armEdge, State.drop, State.withFsm_now, State.withWait_now, State.withEnv_now] at hm
  simp [State.spends, State.armEdge, State.drop, hm]

theorem settled_spends (s : State) : s.spends (Res.settled s).state := by
  simp [State.spends, Res.settled]

theorem waitEdgeFor_spends (n : Nat) (s : State) : s.spends (waitEdgeFor n s).state := by
  unfold waitEdgeFor
  split
  · exact spends_trans (spends_trans (pause_spends s) (edgeWait_spends n _)) (settled_spends _)
  · exact ⟨Nat.le_refl _, Nat.le_refl _, rfl⟩

theorem pushSample_spends (s : State) (v : Rat) : s.spends (s.pushSample v) := by
  simp [State.spends, State.pushSample]

/-- R205, R206: with the fuel that `waitPeakFor` gives, a loop that found no peak has used up the timeout. -/
theorem peakLoop_expired {T : Nat} {thr : Rat} : ∀ (n : Nat) {s t : State}, s.p.tStart ≤ s.now →
    s.env.length + (T - (s.now - s.p.tStart)) < n → peakLoop T thr n s = .ok false t → T ≤ t.now - s.p.tStart := by
  intro n
  induction n with
  | zero => intro s t _ h; exact absurd h (Nat.not_lt_zero _)
  | succ n ih =>
    intro s t h0 hn h
    unfold peakLoop at h
    split at h
    · rename_i ht
      cases h
      exact ht
    · rename_i ht
      have next : ∀ u, s.pause.spends u → peakLoop T thr n u = .ok false t → T ≤ t.now - s.p.tStart := by
        intro u hu h
        obtain ⟨he, hw, hp⟩ := spends_trans (pause_spends s) hu
        have h1 := hu.1
        have h2 := hu.2.1
        have h3 := pause_takes s
        have := ih (s := u) (by omega) (by omega) h
        omega
      have w := waitEdgeFor_spends (min (autoTimeout s.sh) (s.pause.remaining T)) s.pause
      cases hw : waitEdgeFor (min (autoTimeout s.sh) (s.pause.remaining T)) s.pause with
      | err e u => rw [hw] at h; cases h
      | ok r u =>
        rw [hw] at h w
        rw [bind_ok] at h
        have m := regRead_spends u .mask
        cases hm : regRead .mask u with
        | err e v => rw [hm] at h; cases h
        | ok o v =>
          rw [hm] at h m
          rw [bind_ok] at h
          split at h
          · have b := regRead_spends v .busVoltage
            unfold readVolts at h
            cases hb : regRead .busVoltage v with
            | err e x => rw [hb] at h; cases h
            | ok raw x =>
              rw [hb] at h b
              rw [bind_ok, bind_ok] at h
              split at h
              · cases h
              · exact next _ (spends_trans (spends_trans (spends_trans w m) b) (pushSample_spends _ _)) h
          · exact next _ (spends_trans w m) h

end Sys2Proof.Machine
end

