-- ==== Sys2Proof/Tests/Slice0.lean ====
section
/-! SUPPORT. The model's own tests: the WellFormed smoke test, every constructor's decoding of a word written out from
R90 and R92, one or two single-step tests per operation from the vectors of spec/95_test_vectors.md, and for every
obligation with hypotheses a witness that meets them. -/

namespace Sys2Proof.Tests

open Sys2Proof Sys2Proof.Machine

-- One theorem after the other: side by side, their threads' stacks take more memory than a check may.
set_option Elab.async false

/-! ### Helpers -/

/-- CAL1 of spec/95_test_vectors.md, with an alert pin. -/
def cal1 : Session := { rSeries := 0, rBus := 1, vDiode := 0 }

/-- CAL10 of spec/95_test_vectors.md. -/
def cal10 : Session :=
  { rSeries := 7470000, rBus := 830000, vDiode := 3 / 5, pollInterval := 100, rSeries_nonneg := by decide +kernel,
    rBus_pos := by decide +kernel }

/-- A session without an alert pin. -/
def noPin : Session := { alertPin := false }

/-- A transaction that fails with no effect. -/
def failing : Draw := { fails := true }

/-- The reset state in session `x` with the script `env` and thirty quiet draws after it. -/
def base (x : Session) (env : List Draw) : State :=
  { State.reset with session := x, env := env ++ List.replicate 30 quietDraw }

/-- A state with these three device words. -/
def withDev (s : State) (config mask limit : Word) : State :=
  { s with dev := { s.dev with config := config, mask := mask, limit := limit } }

/-- A state with this alert mask in the shadow and in the device. -/
def withSources (s : State) (m : BitVec 6) : State :=
  { s with sh := { s.sh with amask := m }, dev := { s.dev with mask := sourceValue m } }

/-- A state with this operand on the port OPQ. -/
def withOpq (s : State) (q : Rat) : State := { s with opq := q }

/-- A state with this operand on the port OPT. -/
def withOpt (s : State) (n : Nat) : State := { s with opt := n }

/-- A state whose next host event is the command `w`. -/
def commanded (s : State) (w : CommandWord) : State := { s with host := [.command w s.opt s.opq] }

/-- The next state of an outcome. -/
def nextOf (o : Host.Outcome State Fault Refusal) : Option State :=
  match o with
  | .next s => some s
  | .fault _ => none
  | .refused _ => none

/-- What an operation answers and the transactions it performs. -/
def answerOf (i : Instr) (s : State) : Option (Response × List Txn) :=
  (nextOf (exec i s)).map fun t => (t.resp, t.trace)

/-- What a read part of the next state holds. -/
def partOf {α : Type} (f : State → α) (i : Instr) (s : State) : Option α := (nextOf (exec i s)).map f

/-! ### WellFormed refuses an ill-formed term at each check -/

theorem test_wf_setAvg : (Instr.setAvg 3).wellFormed = false := by decide
theorem test_wf_setCt_channel : (Instr.setCt 2 140).wellFormed = false := by decide
theorem test_wf_setCt_time : (Instr.setCt 0 141).wellFormed = false := by decide
theorem test_wf_setAlertSrc_a : (Instr.setAlertSrc 7 0 0 0 0 0).wellFormed = false := by decide
theorem test_wf_setAlertSrc_b : (Instr.setAlertSrc 0 6 0 0 0 0).wellFormed = false := by decide
theorem test_wf_setAlertSrc_c : (Instr.setAlertSrc 0 0 8 0 0 0).wellFormed = false := by decide
theorem test_wf_setAlertSrc_d : (Instr.setAlertSrc 0 0 0 0xE 0 0).wellFormed = false := by decide
theorem test_wf_setAlertSrc_e : (Instr.setAlertSrc 0 0 0 0 6 0).wellFormed = false := by decide
theorem test_wf_setAlertSrc_f : (Instr.setAlertSrc 0 0 0 0 0 6).wellFormed = false := by decide
theorem test_wf_readFlag : (Instr.readFlag 3).wellFormed = false := by decide
theorem test_wf_rdReg : (Instr.rdReg 0x04).wellFormed = false := by decide
theorem test_wf_accepts : ([Instr.setAvg 1024, .setCt 1 8244, .setAlertSrc 0 5 0xF 1 2 3, .readFlag 2, .rdReg 0xFF].all
    Instr.wellFormed) = true := by decide

/-! ### Words written out from R90 and R92 (spec/95_test_vectors.md where it gives the word) -/

theorem test_decode_setAvg : decode 0x01000200 = .ok (.setAvg 512) := by decide
theorem test_decode_setCt_bus : decode 0x020000CC = .ok (.setCt 0 204) := by decide
theorem test_decode_setCt_shunt : decode 0x0201008C = .ok (.setCt 1 140) := by decide
theorem test_decode_setCont : decode 0x03000001 = .ok (.setCont true) := by decide
theorem test_decode_setMeasv : decode 0x04000000 = .ok (.setMeasv false) := by decide
theorem test_decode_setMeasi : decode 0x05000001 = .ok (.setMeasi true) := by decide
theorem test_decode_setMode_v : decode 0x06000002 = .ok (.setMode false true false) := by decide
theorem test_decode_setMode_cv : decode 0x06000006 = .ok (.setMode true true false) := by decide
theorem test_decode_getCfg : decode 0x07000000 = .ok .getCfg := by decide
theorem test_decode_setAlertSrc : decode 0x10FF5210 = .ok (.setAlertSrc 0 1 2 5 0xF 0xF) := by decide
theorem test_decode_setAlertSrc_gap : decode 0x10F5FFF0 = .ok (.setAlertSrc 0 0xF 0xF 0xF 5 0xF) := by decide
theorem test_decode_getAlert : decode 0x11000000 = .ok .getAlert := by decide
theorem test_decode_setApol : decode 0x12000001 = .ok (.setApol true) := by decide
theorem test_decode_setLatch : decode 0x13000001 = .ok (.setLatch true) := by decide
theorem test_decode_readFlag : decode 0x14010000 = .ok (.readFlag 1) := by decide
theorem test_decode_readFlag_ill_formed : decode 0x14030000 = .ok (.readFlag 3) := by decide
theorem test_decode_raw2v : decode 0x20002000 = .ok (.raw2v 0x2000) := by decide
theorem test_decode_raw2i : decode 0x21009C40 = .ok (.raw2i 0x9C40) := by decide
theorem test_decode_raw2p : decode 0x220003E8 = .ok (.raw2p 1000) := by decide
theorem test_decode_v2raw : decode 0x23000000 = .ok .v2raw := by decide
theorem test_decode_i2raw : decode 0x24000000 = .ok .i2raw := by decide
theorem test_decode_p2raw : decode 0x25000000 = .ok .p2raw := by decide
theorem test_decode_readV : decode 0x26000000 = .ok .readV := by decide
theorem test_decode_readI : decode 0x27000000 = .ok .readI := by decide
theorem test_decode_readP : decode 0x28000000 = .ok .readP := by decide
theorem test_decode_setAlertLimit : decode 0x29000000 = .ok .setAlertLimit := by decide
theorem test_decode_getAlertLimit : decode 0x2A000000 = .ok .getAlertLimit := by decide
theorem test_decode_autoTmo : decode 0x30000000 = .ok .autoTmo := by decide
theorem test_decode_waitEdge : decode 0x31000001 = .ok (.waitEdge true) := by decide
theorem test_decode_waitFlag : decode 0x32000000 = .ok (.waitFlag false) := by decide
theorem test_decode_waitPeak : decode 0x33000001 = .ok (.waitPeak true) := by decide
theorem test_decode_reset : decode 0x40000000 = .ok .reset := by decide
theorem test_decode_rdReg : decode 0x41FE0000 = .ok (.rdReg 0xFE) := by decide
theorem test_decode_checkId : decode 0x42000000 = .ok .checkId := by decide

/-- V-DEC-1 to V-DEC-10: illegal words. -/
theorem test_decode_illegal :
    [0x00000000, 0x08000000, 0x2B000000, 0xFF000000, 0x07000001, 0x03000002, 0x01010200, 0x31000002, 0x06000008,
      0x14010001].any (fun w => (decode w).isOk) = false := by decide

theorem test_decodeTableWord : decodeTableWord 32 0x020100CC = some (.setCt 1 204) := by decide

/-! ### One operation at a time -/

/-- P1 step 3. -/
theorem test_setAvg : answerOf (.setAvg 512) (base cal1 []) =
    some (.done .none, [.read 0 0x6127, .write 0 0x6D27]) := by decide +kernel

/-- V-AVG-12. -/
theorem test_setAvg_refused : answerOf (.setAvg 2048) (base cal1 []) = some (.failed (.validation 2048), []) := by
  decide +kernel

/-- P1 step 4. -/
theorem test_setCt_bus : answerOf (.setCt 0 204) (withDev (base cal1 []) 0x6D27 0 0) =
    some (.done .none, [.read 0 0x6D27, .write 0 0x6C67]) := by decide +kernel

/-- V-CT-18. -/
theorem test_setCt_shunt : answerOf (.setCt 1 140) (withDev (base cal1 []) 0x6C4A 0 0) =
    some (.done .none, [.read 0 0x6C4A, .write 0 0x6C42]) := by decide +kernel

/-- V-CONT-1, and the commit of the shadow (R104). -/
theorem test_setCont : partOf (fun t => (t.dev.config, t.sh.cont)) (.setCont false) (base cal1 []) =
    some (0x6123, false) := by decide +kernel

/-- V-MV-2. -/
theorem test_setMeasv : partOf (fun t => t.dev.config) (.setMeasv true) (withDev (base cal1 []) 0x6C48 0 0) =
    some 0x6C4A := by decide +kernel

/-- V-MC-2. -/
theorem test_setMeasi : partOf (fun t => (t.dev.config, t.sh.mc)) (.setMeasi false)
    (withDev (base cal1 []) 0x6C4B 0 0) = some (0x6C4A, false) := by decide +kernel

/-- V-MODE-1. -/
theorem test_setMode : answerOf (.setMode false true false) (withDev (base cal1 []) 0x6C4F 0 0) =
    some (.done .none, [.read 0 0x6C4F, .write 0 0x6C4B, .read 0 0x6C4B, .write 0 0x6C4B, .read 0 0x6C4B,
      .write 0 0x6C4A]) := by decide +kernel

/-- V-MODE-3: the fourth transaction fails; the first step stands and the third is not attempted. -/
theorem test_setMode_fails :
    partOf (fun t => (t.resp, t.dev.config, t.sh.cont, t.sh.mv, t.sh.mc, t.trace.length)) (.setMode false true false)
      (withDev (base cal1 [quietDraw, quietDraw, quietDraw, failing]) 0x6C4F 0 0) =
    some (.failed (.transport 0 true), 0x6C4B, false, true, true, 4) := by decide +kernel

/-- S1. -/
theorem test_getCfg : answerOf .getCfg (base cal1 []) = some (.done (.config 1 1100 1100 true true true), []) := by
  decide +kernel

/-- S3: the word 0x10FF5210 from Mask/Enable 0x0000. -/
theorem test_setAlertSrc : partOf (fun t => (t.trace, t.sh.amask)) (.setAlertSrc 0 1 2 5 0xF 0xF) (base cal1 []) =
    some ([.read 6 0x0000, .write 6 0x8400], 0b100001) := by decide +kernel

/-- R131: the first unrecognized element in list order is the one named. -/
theorem test_setAlertSrc_refused : answerOf (.setAlertSrc 0 0xF 9 6 1 1) (base cal1 []) =
    some (.failed (.validation 9), []) := by decide +kernel

/-- S3. -/
theorem test_getAlert : answerOf .getAlert (withSources (base cal1 []) 0b100001) =
    some (.done (.names ["Conversion Ready", "Over Current Limit"]), []) := by decide +kernel

/-- V-APOL-1 and V-APOL-2. -/
theorem test_setApol :
    answerOf (.setApol true) (withDev (base cal1 []) 0x6127 0x8400 0) =
      some (.done .none, [.read 6 0x8400, .write 6 0x8402]) ∧
    partOf (fun t => t.dev.mask) (.setApol false) (withDev (base cal1 []) 0x6127 0x8403 0) = some 0x8401 := by
  decide +kernel

/-- V-LATCH-1. -/
theorem test_setLatch : answerOf (.setLatch true) (withDev (base cal1 []) 0x6127 0x8401 0) =
    some (.done .none, [.read 6 0x8401, .write 6 0x8400, .read 6 0x8400, .write 6 0x8401]) := by decide +kernel

/-- V-LATCH-4: the fourth transaction fails; the shadow holds 0. -/
theorem test_setLatch_fails : partOf (fun t => (t.resp, t.sh.latch, t.dev.mask)) (.setLatch true)
    (withDev (base cal1 [quietDraw, quietDraw, quietDraw, failing]) 0x6127 0x8401 0) =
    some (.failed (.transport 6 true), false, 0x8400) := by decide +kernel

/-- V-FLAG-1. -/
theorem test_readFlag_cvrf : partOf (fun t => (t.resp, t.dev.mask)) (.readFlag 1)
    (withDev (base cal1 []) 0x6127 0x840A 0) = some (.done (.bit true), 0x8402) := by decide +kernel

/-- V-FLAG-3, and V-FLAG-4 with AFF drawn 1 after the read. -/
theorem test_readFlag_aff :
    partOf (fun t => (t.resp, t.dev.mask)) (.readFlag 0) (withDev (base cal1 []) 0x6127 0x8419 0) =
      some (.done (.bit true), 0x8401) ∧
    partOf (fun t => (t.resp, t.dev.mask)) (.readFlag 2)
      (withDev (base cal1 [{ affAfter := true }]) 0x6127 0x8418 0) = some (.done (.bit false), 0x8410) := by
  decide +kernel

/-- U12: a failed read of 0x06 with CVRF set either clears it or not. -/
theorem test_readFlag_fails :
    [true, false].map (fun b => partOf (fun t => (t.resp, t.dev.mask)) (.readFlag 1)
      (withDev (base cal1 [{ fails := true, took := b }]) 0x6127 0x840A 0)) =
    [some (.failed (.transport 6 false), 0x8402), some (.failed (.transport 6 false), 0x840A)] := by decide +kernel

/-- V-RAW2V-2 and V-RAW2V-6. -/
theorem test_raw2v :
    answerOf (.raw2v 0x2000) (base cal10 []) = some (.done (.quantity 103), []) ∧
    answerOf (.raw2v 0x8000) (base cal1 []) = some (.done (.quantity (4096 / 100)), []) := by decide +kernel

/-- V-RAW2I-4 and V-RAW2I-3. -/
theorem test_raw2i :
    answerOf (.raw2i 0x8000) (base cal1 []) = some (.done (.quantity (-4096 / 100)), []) ∧
    answerOf (.raw2i 0x7FFF) (base cal1 []) = some (.done (.quantity (4095875 / 100000)), []) := by decide +kernel

/-- V-RAW2P-2 and V-RAW2P-4. -/
theorem test_raw2p :
    answerOf (.raw2p 1000) (base cal10 []) = some (.done (.quantity 100), []) ∧
    answerOf (.raw2p 0xFFFF) (base cal1 []) = some (.done (.quantity (65535 / 100)), []) := by decide +kernel

/-- V-V2RAW-2 and V-V2RAW-6. -/
theorem test_v2raw :
    answerOf .v2raw (withOpq (base cal10 []) (230005 / 1000)) = some (.done (.count 18352 230), []) ∧
    answerOf .v2raw (withOpq (base cal10 []) (8197875 / 10000)) = some (.done (.count 65535 (8197875 / 10000)), []) := by
  decide +kernel

/-- V-V2RAW-4, V-V2RAW-7, V-V2RAW-8. -/
theorem test_v2raw_range :
    answerOf .v2raw (withOpq (base cal10 []) (1 / 2)) = some (.failed (.range (-8)), []) ∧
    answerOf .v2raw (withOpq (base cal10 []) (8198 / 10)) = some (.failed (.range 65536), []) ∧
    answerOf .v2raw (withOpq (base cal10 []) (595 / 1000)) = some (.done (.count 0 (6 / 10)), []) := by decide +kernel

/-- V-I2RAW-6 and V-I2RAW-4. -/
theorem test_i2raw :
    answerOf .i2raw (withOpq (base cal1 []) 50) = some (.done (.count 40000 (-3192 / 100)), []) ∧
    answerOf .i2raw (withOpq (base cal1 []) (-1 / 2)) = some (.failed (.range (-400)), []) := by decide +kernel

/-- V-I2RAW-5: a tie, under both rules. -/
theorem test_i2raw_tie :
    answerOf .i2raw (withOpq (base cal1 []) (1 / 1600)) = some (.done (.count 0 0), []) ∧
    answerOf .i2raw (withOpq (base { roundTie := .halfAway } []) (1 / 1600)) =
      some (.done (.count 1 (1 / 800)), []) := by decide +kernel

/-- V-P2RAW-1 and V-P2RAW-5. -/
theorem test_p2raw :
    answerOf .p2raw (withOpq (base cal1 []) (12344 / 1000)) = some (.done (.count 1234 (1234 / 100)), []) ∧
    answerOf .p2raw (withOpq (base cal1 []) (655355 / 1000)) = some (.failed (.range 65536), []) := by decide +kernel

/-- V-READV-1. -/
theorem test_readV : answerOf .readV (base cal10 [{ busVoltage := 0x2000 }]) =
    some (.done (.quantity 103), [.read 2 0x2000]) := by decide +kernel

/-- V-READV-3. -/
theorem test_readV_fails : answerOf .readV (base cal10 [failing]) =
    some (.failed (.transport 2 false), [.readFailed 2]) := by decide +kernel

/-- V-READI-2. -/
theorem test_readI : answerOf .readI (base cal1 [{ current := 0xFFFF }]) =
    some (.done (.quantity (-1 / 800)), [.read 1 0xFFFF]) := by decide +kernel

/-- V-READP-1. -/
theorem test_readP : answerOf .readP (base cal10 [{ power := 0x03E8 }]) =
    some (.done (.quantity 100), [.read 3 0x03E8]) := by decide +kernel

/-- V-LIM-6, V-LIM-11, V-LIM-8. -/
theorem test_setAlertLimit :
    answerOf .setAlertLimit (withOpq (withSources (base cal10 []) 0b000100) 230) =
      some (.done .none, [.write 7 0x47B0]) ∧
    answerOf .setAlertLimit (withOpq (withSources (base cal10 []) 0b100000) 50) =
      some (.done .none, [.write 7 0x9C40]) ∧
    answerOf .setAlertLimit (withOpq (withSources (base cal10 []) 0b010000) (-1 / 2)) =
      some (.failed (.range (-400)), []) := by decide +kernel

/-- V-LIM-4. -/
theorem test_setAlertLimit_needs_a_source : answerOf .setAlertLimit (withOpq (withSources (base cal1 []) 0b000001) 2) =
    some (.failed .precondition, []) := by decide +kernel

/-- V-LIM-9, V-LIM-10, V-LIM-3. -/
theorem test_getAlertLimit :
    answerOf .getAlertLimit (withSources (withDev (base cal1 []) 0x6127 0 0x0640) 0b001000) =
      some (.done (.quantity 2), [.read 7 0x0640]) ∧
    answerOf .getAlertLimit (withSources (withDev (base cal1 []) 0x6127 0 0x0640) 0b000010) =
      some (.done (.quantity 16), [.read 7 0x0640]) ∧
    answerOf .getAlertLimit (withSources (withDev (base cal1 []) 0x6127 0 0x0321) 0b100001) =
      some (.done (.quantity (100125 / 100000)), [.read 7 0x0321]) := by decide +kernel

/-- V-LIM-5. -/
theorem test_getAlertLimit_needs_a_source : answerOf .getAlertLimit (base cal1 []) = some (.failed .precondition, []) := by
  decide +kernel

/-- V-TMO-1 and V-TMO-9. -/
theorem test_autoTmo :
    answerOf .autoTmo (base cal1 []) = some (.done (.micros 4400), []) ∧
    autoTimeout { Shadow.reset with vbusct := 332, ishct := 140 } = 1000 := by decide +kernel

/-- V-EDGE-4: a low line rises, then falls at 3000. -/
theorem test_waitEdge_signal :
    partOf (fun t => (t.resp, t.now, t.fsm)) (.waitEdge false)
      (withOpt (base cal1 [{ events := [.line false] }, { events := [.time 1000, .line true, .time 2000, .line false] }])
        5000) = some (.done (.bit true), 3000, .idle) := by decide +kernel

/-- V-EDGE-9 and V-EDGE-3: an edge after the deadline, and a level that is no edge. -/
theorem test_waitEdge_expire :
    partOf (fun t => (t.resp, t.now)) (.waitEdge false)
      (withOpt (base cal1 [quietDraw, { events := [.time 6000, .line false] }]) 5000) = some (.done (.bit false), 5000) ∧
    partOf (fun t => (t.resp, t.now)) (.waitEdge false)
      (withOpt (base cal1 [{ events := [.line false] }]) 5000) = some (.done (.bit false), 5000) := by decide +kernel

/-- V-WF-3 and V-WF-4. -/
theorem test_waitFlag_zero :
    partOf (fun t => (t.resp, t.now)) (.waitFlag false) (withDev (base cal1 []) 0x6127 0x0408 0) =
      some (.done (.bit true), 0) ∧
    answerOf (.waitFlag false) (base cal1 []) = some (.done (.bit false), [.read 6 0]) := by decide +kernel

/-- V-WF-1 in small: two polls 100 microseconds apart see nothing, the third sees CVRF. -/
theorem test_waitFlag_polls :
    partOf (fun t => (t.resp, t.now, t.trace.length)) (.waitFlag false)
      (withOpt (base cal10 [quietDraw, quietDraw, { cvrf := some true }]) 4400) = some (.done (.bit true), 200, 3) := by
  decide +kernel

/-- V-WF-5: the third read fails. -/
theorem test_waitFlag_fails :
    partOf (fun t => (t.resp, t.fsm, t.trace.length)) (.waitFlag false)
      (withOpt (base cal10 [quietDraw, quietDraw, failing]) 4400) = some (.failed (.transport 6 false), .idle, 3) := by
  decide +kernel

/-- P5: the response, the end time, the 34 transactions and the end state. -/
theorem test_waitPeak :
    partOf (fun t => (t.resp, t.now, t.trace.length, t.dev.config, t.dev.mask, t.sh)) (.waitPeak true)
      (withOpq (base cal10 (List.replicate 14 quietDraw ++ peakPass 140 0x1F40 ++ peakPass 140 0x1F90 ++
        peakPass 140 0x1F68)) 5) = some (.done .success, 420, 34, 0x6127, 0x0000, Shadow.reset) := by decide +kernel

/-- V-PEAK-3 and V-PEAK-4. -/
theorem test_waitPeak_fails :
    answerOf (.waitPeak true) (base noPin []) = some (.failed .precondition, []) ∧
    partOf (fun t => (t.resp, t.trace.length, t.sh)) (.waitPeak false) (withOpq (base cal10 []) 5) =
      some (.failed .timeout, 28, Shadow.reset) := by decide +kernel

/-- V-PEAK-5: the override's second transaction fails; nothing is restored. -/
theorem test_waitPeak_aborts :
    answerOf (.waitPeak true) (base cal10 [quietDraw, failing]) =
      some (.failed (.transport 0 true), [.read 0 0x6127, .writeFailed 0 0x6127]) := by decide +kernel

/-- R204, R205: with OPT 2500 and no edge, passes of 1000, 1000 and 500 microseconds, each with one read of 0x06. -/
theorem test_waitPeak_passes :
    partOf (fun t => (t.resp, t.now, t.trace.length)) (.waitPeak false)
      (withOpt (base cal10 (silentPasses 2 ++ List.replicate 10 quietDraw)) 2500) = some (.failed .timeout, 2500, 31) := by
  decide +kernel

/-- V-RST-1. -/
theorem test_reset : partOf (fun t => (t.trace, t.dev.config, t.dev.mask, t.dev.limit, t.sh)) .reset
    (withSources (withDev (base cal1 []) 0x6C4A 0 0x0640) 0b100001) =
    some ([.write 0 0x8000], 0x6127, 0x0000, 0x0000, Shadow.reset) := by decide +kernel

/-- V-RST-2. -/
theorem test_reset_fails : partOf (fun t => (t.resp, t.sh.amask, t.dev.config)) .reset
    (withSources (withDev (base cal1 [failing]) 0x6C4A 0 0) 0b100001) =
    some (.failed (.transport 0 true), 0b100001, 0x6C4A) := by decide +kernel

/-- V-RD-2. -/
theorem test_rdReg : partOf (fun t => (t.resp, t.dev.mask)) (.rdReg 0x06) (withDev (base cal1 []) 0x6127 0x8408 0) =
    some (.done (.word 0x8408), 0x8400) := by decide +kernel

/-- V-RD-4. -/
theorem test_rdReg_refused : answerOf (.rdReg 0x04) (base cal1 []) = some (.failed (.validation 4), []) := by
  decide +kernel

/-- V-ID-1. -/
theorem test_checkId : answerOf .checkId (base cal1 []) =
    some (.done (.ident true 0), [.read 0xFE 0x5449, .read 0xFF 0x2270]) := by decide +kernel

/-- V-ID-4. -/
theorem test_checkId_fails : answerOf .checkId (base cal1 [failing]) =
    some (.failed (.transport 0xFE false), [.readFailed 0xFE]) := by decide +kernel

/-- R232, R72: the second read fails. -/
theorem test_checkId_second_fails : answerOf .checkId (base cal1 [quietDraw, failing]) =
    some (.failed (.transport 0xFF false), [.read 0xFE 0x5449, .readFailed 0xFF]) := by decide +kernel

/-- V-DEC-1: an illegal word is answered with the word. -/
theorem test_step_illegal : (nextOf (step (commanded (base cal1 []) 0x08000000))).map (fun t => (t.resp, t.trace)) =
    some (.failed (.illegalCommand 0x08000000), []) := by decide +kernel

/-- R240: the five status codes, and 0. -/
theorem test_status :
    [Response.done .none, .failed (.validation 3), .failed (.illegalCommand 0), .failed .precondition,
      .failed (.range (-8)), .failed (.transport 6 false), .failed .timeout].map Response.status =
    [some 0, some 1, some 1, some 2, some 3, some 4, some 5] := by decide +kernel

/-- R89, R108: the step runs the decoded operation. -/
theorem test_step_getCfg : (nextOf (step (commanded (base cal1 []) 0x07000000))).map State.resp =
    some (.done (.config 1 1100 1100 true true true)) := by decide +kernel

/-! ### Witnesses: for each obligation with hypotheses, a state and operands that meet all of them, clause by clause

Where a hypothesis is an equation for `State.env` with two to four named draws, the draws are the first of the script. -/

/-- A small script of `n` quiet draws and then `d`. -/
def scripted (n : Nat) (d : Draw) : State := { State.reset with session := cal1, env := List.replicate n quietDraw ++ [d] }

/-- The hypotheses of a `FieldSetter` over one state: a legal device, Idle, and a script of two draws, of which none, the
first, or the second fails. -/
abbrev SetterHypotheses (s : State) (d1 d2 : Draw) : Prop := s.dev.legal ∧ s.fsm = .idle ∧ s.env = [d1, d2]

theorem witness_FieldSetter :
    (SetterHypotheses (scripted 1 quietDraw) quietDraw quietDraw ∧ quietDraw.fails = false ∧ flagsQuiet quietDraw) ∧
    (SetterHypotheses { scripted 0 failing with env := [failing, quietDraw] } failing quietDraw ∧ failing.fails = true ∧ flagsQuiet failing) ∧
    (SetterHypotheses (scripted 1 failing) quietDraw failing ∧ quietDraw.fails = false ∧ failing.fails = true ∧ flagsQuiet failing) := by
  decide +kernel

/-- A word of an unassigned opcode and one with a must-be-zero bit set match no row; the last row's own word does. -/
theorem witness_IllegalWordsMatchNoRow :
    (∀ row ∈ opcodeRows, (0x08000000 : CommandWord) &&& row.2 ≠ row.1) ∧
    (∀ row ∈ opcodeRows, (0x07000001 : CommandWord) &&& row.2 ≠ row.1) ∧
    ¬ ∀ row ∈ opcodeRows, (0x42000000 : CommandWord) &&& row.2 ≠ row.1 := by
  simp [opcodeRows]

theorem witness_StepRunsDecodedOperation :
    (commanded (base cal1 []) 0x01000200).fsm = .idle ∧
    (commanded (base cal1 []) 0x01000200).host = [.command 0x01000200 0 0] ∧
    decode 0x01000200 = .ok (.setAvg 512) := by decide +kernel

theorem witness_IllegalCommandTouchesNothing :
    (commanded (base cal1 []) 0x07000001).fsm = .idle ∧
    (commanded (base cal1 []) 0x07000001).host = [.command 0x07000001 0 0] ∧
    ∀ row ∈ opcodeRows, (0x07000001 : CommandWord) &&& row.2 ≠ row.1 :=
  ⟨rfl, rfl, witness_IllegalWordsMatchNoRow.2.1⟩

theorem witness_StepRefusesWhileBusy : ({ base cal1 [] with fsm := .armed } : State).fsm ≠ .idle := by decide +kernel

theorem witness_BlockResetSetsTheBlock :
    ({ base cal1 [] with host := [.blockReset] } : State).fsm = .idle ∧
    ({ base cal1 [] with host := [.blockReset] } : State).host = [.blockReset] := by decide +kernel

theorem witness_DevicePowerOnLeavesTheBlock :
    ({ base cal1 [] with host := [.devicePowerOn] } : State).fsm = .idle ∧
    ({ base cal1 [] with host := [.devicePowerOn] } : State).host = [.devicePowerOn] := by decide +kernel

theorem witness_StepKeepsRegistersLegal :
    (commanded (base cal1 []) 0x01000200).legal ∧
    (nextOf (step (commanded (base cal1 []) 0x01000200))).isSome = true := by decide +kernel

theorem witness_OperationKeepsShadowAndDeviceInAgreement :
    (commanded (base cal1 []) 0x10FF5210).legal ∧ (commanded (base cal1 []) 0x10FF5210).agrees ∧
    (commanded (base cal1 []) 0x10FF5210).host = [.command 0x10FF5210 0 0] ∧
    (nextOf (step (commanded (base cal1 []) 0x10FF5210))).map (fun t => t.trace.all fun x => !x.failed) = some true := by
  decide +kernel

theorem witness_NoOperationChangesSessionOrIdentity :
    (∃ t, exec (.setAvg 512) (base cal1 []) = .next t) ∧
    (∃ t, step ({ base cal1 [] with host := [.blockReset] } : State) = .next t) ∧
    (∃ t, step ({ base cal1 [] with host := [.devicePowerOn] } : State) = .next t) ∧
    ∃ t, step (base cal1 []) = .next t := ⟨⟨_, rfl⟩, ⟨_, rfl⟩, ⟨_, rfl⟩, ⟨_, rfl⟩⟩

theorem witness_EveryOperationAnswersAndIsIdle : (base cal1 []).fsm = .idle := by decide +kernel

theorem witness_PreciseErrorsLeaveNoTrace :
    (base cal1 []).legal ∧ ∃ t e, exec .setAlertLimit (base cal1 []) = .next t ∧ t.resp = .failed e ∧ e.precise = true :=
  ⟨by decide +kernel, _, .precondition, rfl, by decide +kernel, rfl⟩

theorem witness_ValidationErrorMeansIllegalOperand :
    (base cal1 []).legal ∧ (Instr.setAvg 3).wellFormed = false ∧
    ∃ t n, exec (.rdReg 0x08) (base cal1 []) = .next t ∧ t.resp = .failed (.validation n) :=
  ⟨by decide +kernel, by decide, _, 8, rfl, by decide +kernel⟩

theorem witness_ValidationErrorsNameTheOperand :
    (base cal1 []).fsm = .idle ∧ (2048 : BitVec 16).toNat ∉ [1, 4, 16, 64, 128, 256, 512, 1024] ∧
    1 < (2 : BitVec 8).toNat ∧
    (1 : BitVec 8).toNat ≤ 1 ∧ (8245 : BitVec 16).toNat ∉ [140, 204, 332, 588, 1100, 2116, 4156, 8244] ∧
    ([5, 0xF, 6, 7, 0, 0] : List (BitVec 4)) = [5, 0xF] ++ 6 :: [7, 0, 0] ∧
    (∀ y ∈ ([5, 0xF] : List (BitVec 4)), y = 0xF ∨ y.toNat ≤ 5) ∧ 5 < (6 : BitVec 4).toNat ∧ (6 : BitVec 4) ≠ 0xF ∧
    2 < (3 : BitVec 8).toNat ∧ (0x08 : BitVec 8) ∉ Config.mappedAddresses := by decide +kernel

theorem witness_ReadersStoreNothing :
    (Instr.rdReg 0x06).readsOnly = true ∧ ∃ t, exec (.rdReg 0x06) (base cal1 []) = .next t := ⟨rfl, _, rfl⟩

theorem witness_PureOperationsStayOffTheBus :
    Instr.v2raw.offTheBus = true ∧ (base cal1 []).fsm = .idle ∧ ∃ t, exec .v2raw (base cal1 []) = .next t :=
  ⟨rfl, by decide +kernel, _, rfl⟩

theorem witness_AlertLineIgnoredOutsideEdgeWaits :
    (Instr.waitFlag true).watchesLine = false ∧ (∃ t, exec (.waitFlag true) (base cal1 []) = .next t) ∧
    ∃ u, exec (.waitFlag true) { base cal1 [] with alertN := false } = .next u := ⟨rfl, ⟨_, rfl⟩, _, rfl⟩

/-- One witness for each of the four clauses. -/
theorem witness_WritesStoreWhatTheContractSays :
    ((0x7FFF : Word).getLsbD 15 = false ∧ ∃ u t, regWrite .config 0x7FFF (base cal1 []) = .ok u t) ∧
    ((0x8000 : Word).getLsbD 15 = true ∧ ∃ u t, regWrite .config 0x8000 (base cal1 []) = .ok u t) ∧
    ((∃ u t, regWrite .mask 0xFFFF (base cal1 []) = .ok u t) ∧ flagsQuiet (base cal1 []).nextDraw) ∧
    ∃ u t, regWrite .limit 0xFFFF (base cal1 []) = .ok u t :=
  ⟨⟨rfl, _, _, rfl⟩, ⟨rfl, _, _, rfl⟩, ⟨⟨_, _, rfl⟩, by decide +kernel⟩, _, _, rfl⟩

theorem witness_ReadingMaskEnableClearsFlags :
    flagsQuiet (base cal1 []).nextDraw ∧ (∃ v t, regRead .mask (base cal1 []) = .ok v t) ∧
    ∃ v t, regRead .limit (base cal1 []) = .ok v t := ⟨by decide +kernel, ⟨_, _, rfl⟩, _, _, rfl⟩

/-- A failed read of Mask/Enable and of another register, and a failed write that had its effect; the draws are quiet. -/
theorem witness_FailedTransactionsKeepOldOrNew :
    ((∃ e t, regRead .mask (base cal1 [failing]) = .err e t) ∧ flagsQuiet (base cal1 [failing]).nextDraw) ∧
    (∃ e t, regRead .limit (base cal1 [failing]) = .err e t) ∧
    (∃ e t, regWrite .config 0x8000 (base cal1 [{ fails := true, took := true }]) = .err e t) ∧
    flagsQuiet (base cal1 [{ fails := true, took := true }]).nextDraw :=
  ⟨⟨⟨_, _, rfl⟩, by decide +kernel⟩, ⟨_, _, rfl⟩, ⟨_, _, rfl⟩, by decide +kernel⟩

/-- The boundary rows of the table; the other hypotheses are `witness_FieldSetter`'s. -/
theorem witness_SetAvgWritesTheIndex :
    [1, 4, 16, 64, 128, 256, 512, 1024][0]? = some (1 : BitVec 16).toNat ∧
    [1, 4, 16, 64, 128, 256, 512, 1024][7]? = some (1024 : BitVec 16).toNat ∧
    SetterHypotheses (scripted 1 quietDraw) quietDraw quietDraw := by decide +kernel

theorem witness_SetCtWritesTheIndex :
    [140, 204, 332, 588, 1100, 2116, 4156, 8244][0]? = some (140 : BitVec 16).toNat ∧
    [140, 204, 332, 588, 1100, 2116, 4156, 8244][7]? = some (8244 : BitVec 16).toNat ∧
    SetterHypotheses (scripted 1 quietDraw) quietDraw quietDraw := by decide +kernel

theorem witness_ModeBitSettersWriteOneBit : SetterHypotheses (scripted 1 quietDraw) quietDraw quietDraw := by decide +kernel

theorem witness_SetModeIsThreeWrites :
    (scripted 5 quietDraw).dev.legal ∧ (scripted 5 quietDraw).fsm = .idle ∧
    (scripted 5 quietDraw).env = [quietDraw, quietDraw, quietDraw, quietDraw, quietDraw, quietDraw] ∧
    quietDraw.fails = false ∧ flagsQuiet quietDraw := by decide +kernel

/-- A failure of each of the six transactions. -/
theorem witness_SetModeStopsAtTheFirstFailure :
    ∀ k < 6, (scripted k failing).dev.legal ∧ (scripted k failing).fsm = .idle ∧
      (scripted k failing).env = List.replicate k quietDraw ++ failing :: [] ∧ (List.replicate k quietDraw).length < 6 ∧
      (∀ x ∈ List.replicate k quietDraw, x.fails = false) ∧ failing.fails = true ∧ flagsQuiet failing := by decide +kernel

theorem witness_UnpackInvertsPack : 1024 ∈ Config.avgTable ∧ 140 ∈ Config.ctTable ∧ 8244 ∈ Config.ctTable := by decide

theorem witness_CollapseKeepsTheHighestSource : (∀ c ∈ [0, 1, 5, 2], c ≤ 5) ∧ 1 ≤ 5 ∧ 5 ≤ 5 := by decide

theorem witness_SetAlertSrcWritesTheCollapsedMask :
    (∀ x ∈ ([0, 1, 5, 0xF, 0xF, 0xF] : List (BitVec 4)), x = 0xF ∨ x.toNat ≤ 5) ∧
    SetterHypotheses (scripted 1 quietDraw) quietDraw quietDraw := by decide +kernel

theorem witness_SetApolWritesBitOne : SetterHypotheses (scripted 1 quietDraw) quietDraw quietDraw := by decide +kernel

/-- Success of SET_LATCH 1 and a failure of each of its four transactions; the clause for SET_LATCH 0 is
`witness_FieldSetter`. -/
theorem witness_SetLatchPassesThroughCleared :
    ((scripted 3 quietDraw).dev.legal ∧ (scripted 3 quietDraw).fsm = .idle ∧
      (scripted 3 quietDraw).env = [quietDraw, quietDraw, quietDraw, quietDraw] ∧ quietDraw.fails = false ∧
      flagsQuiet quietDraw) ∧
    ∀ k < 4, (scripted k failing).dev.legal ∧ (scripted k failing).fsm = .idle ∧
      (scripted k failing).env = List.replicate k quietDraw ++ failing :: [] ∧ (List.replicate k quietDraw).length < 4 ∧
      (∀ x ∈ List.replicate k quietDraw, x.fails = false) ∧ failing.fails = true ∧ flagsQuiet failing := by decide +kernel

/-- Both clauses at the last legal selector. -/
theorem witness_ReadFlagAnswersOneBit :
    ((scripted 0 quietDraw).fsm = .idle ∧ (scripted 0 quietDraw).env = [quietDraw] ∧ (2 : BitVec 8).toNat ≤ 2 ∧
      quietDraw.fails = false ∧ flagsQuiet quietDraw) ∧
    (scripted 0 failing).fsm = .idle ∧ (scripted 0 failing).env = [failing] ∧ failing.fails = true ∧ flagsQuiet failing := by decide +kernel

theorem witness_RoundIntIsNearest : |(1 / 2 : Rat) - (roundInt .halfEven (1 / 2) : Rat)| = 1 / 2 := by decide +kernel

/-- V2RAW, I2RAW and P2RAW: a count at each end of the range, and a number just outside it at each end. -/
theorem witness_InverseConversionsAnswerCountOrRangeError :
    (base cal1 []).fsm = .idle ∧
    countOf cal1 ((0 - cal1.vDiode) * divider cal1 * 800) 0 ∧
    countOf cal1 ((65535 / 800 - cal1.vDiode) * divider cal1 * 800) 65535 ∧
    outOfRange cal1 ((-1 / 800 - cal1.vDiode) * divider cal1 * 800) (-1) ∧
    outOfRange cal1 ((65536 / 800 - cal1.vDiode) * divider cal1 * 800) 65536 ∧
    countOf cal1 (65535 / 800 * 800) 65535 ∧ outOfRange cal1 (65536 / 800 * 800) 65536 ∧
    countOf cal1 (65535 / 100 * divider cal1 * 100) 65535 ∧ outOfRange cal1 (-1 / 100 * divider cal1 * 100) (-1) := by
  unfold countOf outOfRange
  decide +kernel

/-- One witness for each clause; the last three at the largest count the clause takes. -/
theorem witness_QuantizationLaw :
    (∃ t, exec .v2raw (withOpq (base cal1 []) 0) = .next t ∧ t.resp = .done (.count 0 0)) ∧
    (∃ t, exec .p2raw (withOpq (base cal1 []) 0) = .next t ∧ t.resp = .done (.count 0 0)) ∧
    (∃ t, exec .i2raw (withOpq (base cal1 []) (32767 / 800)) = .next t ∧ t.resp = .done (.count 32767 (32767 / 800))) ∧
    (withOpq (base cal1 []) (65535 / 800)).opq = ((65535 : Word).toNat : Rat) * (1 / 800) / divider cal1 + cal1.vDiode ∧
    (withOpq (base cal1 []) (65535 / 100)).opq = ((65535 : Word).toNat : Rat) * (1 / 100) / divider cal1 ∧
    (32767 : Word).toNat < 32768 ∧ (withOpq (base cal1 []) (32767 / 800)).opq = ((32767 : Word).toNat : Rat) * (1 / 800) :=
  ⟨⟨_, rfl, by decide +kernel⟩, ⟨_, rfl, by decide +kernel⟩, ⟨_, rfl, by decide +kernel⟩, by decide +kernel,
    by decide +kernel, by decide, by decide +kernel⟩

/-- Both clauses of a `MeasurementRead`. -/
theorem witness_MeasurementReadsConvertTheRegister :
    ((scripted 0 quietDraw).fsm = .idle ∧ (scripted 0 quietDraw).env = [quietDraw] ∧ quietDraw.fails = false) ∧
    (scripted 0 failing).fsm = .idle ∧ (scripted 0 failing).env = [failing] ∧ failing.fails = true ∧ flagsQuiet failing := by decide +kernel

theorem witness_UnitFollowsTheFunctionalSource : oneFunctional 0b100001 = true := by decide

/-- No source; out of range; a count stored; a failed write. -/
theorem witness_SetAlertLimitStoresTheCount :
    (base cal1 []).fsm = .idle ∧ unitOf (base cal1 []).sh.amask = none ∧
    unitOf (withSources (scripted 0 quietDraw) 0b010000).sh.amask = some .current ∧
    outOfRange cal1 (-1 / 2 * 800) (-400) ∧ countOf cal1 (50 * 800) 40000 ∧
    (withSources (scripted 0 quietDraw) 0b010000).env = [quietDraw] ∧ quietDraw.fails = false ∧ flagsQuiet quietDraw ∧
    unitOf (withSources (scripted 0 failing) 0b000100).sh.amask = some .voltage ∧
    countOf cal1 ((1 - cal1.vDiode) * divider cal1 * 800) 800 ∧
    (withSources (scripted 0 failing) 0b000100).env = [failing] ∧ failing.fails = true ∧ flagsQuiet failing := by
  unfold countOf outOfRange
  decide +kernel

theorem witness_GetAlertLimitConvertsTheLiveRegister :
    (base cal1 []).fsm = .idle ∧ unitOf (base cal1 []).sh.amask = none ∧
    unitOf (withSources (scripted 0 quietDraw) 0b000010).sh.amask = some .power ∧
    (withSources (scripted 0 quietDraw) 0b000010).env = [quietDraw] ∧ quietDraw.fails = false ∧
    (withSources (scripted 0 failing) 0b000010).env = [failing] ∧ failing.fails = true ∧ flagsQuiet failing := by decide +kernel

theorem witness_AutomaticTimeoutBounds :
    Shadow.reset.legal ∧
    ({ Shadow.reset with avg := 1024, vbusct := 8244, ishct := 8244 } : Shadow).legal := by decide

/-- A script with an edge before, at and after the deadline of 5000, and one with no edge: each meets the hypotheses. -/
theorem witness_WaitEdgeFollowsTheTrace :
    ∀ es ∈ ([[.time 4999, .line false], [.time 5000, .line false], [.time 5001, .line false], []] : List (List EnvEvent)),
      let s := withOpt { scripted 1 { events := es } with env := [quietDraw, { events := es }] } 5000
      s.session.alertPin = true ∧ s.fsm = .idle ∧ s.env = [quietDraw, { events := es }] ∧ 5000 = s.opt := by
  decide +kernel

theorem witness_WaitEdgeEndsByItsDeadline : (base cal1 []).session.alertPin = true := by decide +kernel

theorem witness_EdgeWaitsNeedTheAlertPin :
    (base noPin []).session.alertPin = false ∧ (base noPin []).fsm = .idle := by decide +kernel

/-- Success after two polls with nothing, and at the first read with CVRF set before the call; failure one read past a
timeout of 1, and at the first read with the timeout 0. -/
theorem witness_WaitFlagPollsUntilFlagOrDeadline :
    (let s : State := withOpt { State.reset with session := cal10,
                                                 env := List.replicate 2 quietDraw ++ [{ cvrf := some true }] } 4400
     s.fsm = .idle ∧ cvrfOf s.dev.mask = false ∧ 4400 = s.opt ∧ (2 - 1) * s.session.pollInterval < 4400) ∧
    (let s : State := withDev (scripted 0 quietDraw) 0x6127 0x0408 0
     s.fsm = .idle ∧ cvrfOf s.dev.mask = true ∧ 0 = s.opt ∧ s.env = List.replicate 0 quietDraw ++ [quietDraw] ∧
       quietDraw.fails = false ∧ quietDraw.events = [] ∧ quietDraw.cvrf = none) ∧
    (let s : State := withOpt (scripted 1 quietDraw) 1
     s.fsm = .idle ∧ cvrfOf s.dev.mask = false ∧ 1 = s.opt ∧ (1 - 1) * s.session.pollInterval < 1 ∧
       s.env = List.replicate 1 quietDraw ++ [quietDraw] ∧ 1 ≤ 1 * s.session.pollInterval) ∧
    (let s : State := scripted 0 quietDraw
     s.fsm = .idle ∧ cvrfOf s.dev.mask = false ∧ 0 = s.opt ∧ s.env = List.replicate 0 quietDraw ++ [quietDraw] ∧
       0 ≤ 0 * s.session.pollInterval) := by decide +kernel

/-- A first read that fails, and one that fails after two polls 100 microseconds apart, with the timeout 101 just above the
instant of the second. -/
theorem witness_WaitFlagAbortsOnFailedRead :
    ((scripted 0 failing).env = List.replicate 0 quietDraw ++ [failing] ∧ failing.fails = true ∧ flagsQuiet failing) ∧
    (let s : State := withOpt { State.reset with session := cal10, env := List.replicate 2 quietDraw ++ [failing] } 101
     101 = s.opt ∧ cvrfOf s.dev.mask = false ∧ (2 - 1) * s.session.pollInterval < 101) := by decide +kernel

/-- A state from which WAIT_PEAK runs, with a failed transaction or without. -/
abbrev PeakHypotheses (s : State) (failed : Bool) : Prop :=
  s.legal ∧ s.agrees ∧ s.session.alertPin = true ∧ s.trace = [] ∧
    partOf (fun t => t.trace.any Txn.failed) (.waitPeak false) s = some failed

/-- No failed transaction; the second one of the override, a write, fails; the second one of the restore fails. -/
theorem witness_WaitPeakRestoresTheConfiguration :
    PeakHypotheses (base cal1 []) false ∧ PeakHypotheses (base cal1 [quietDraw, failing]) true ∧
    PeakHypotheses (base cal1 (List.replicate 15 quietDraw ++ [failing])) true :=
  ⟨by decide +kernel, by decide +kernel, by decide +kernel⟩

/-- With two passes without an edge before the first sample and one before the last. -/
theorem witness_WaitPeakFindsThePeak :
    let env := List.replicate 14 quietDraw ++ (silentPasses 2 ++ peakPass 140 0x1F40) ++
      (silentPasses 0 ++ peakPass 0 0x1F90) ++ (silentPasses 1 ++ peakPass 999 0x1F68) ++ List.replicate 14 quietDraw ++ []
    let s : State := withOpq { State.reset with session := cal10, env := env } 5
    s.legal ∧ s.session.alertPin = true ∧ 140 + 0 + 999 + 1000 * (2 + 0 + 1) < 100000 ∧
      (0x1F40 : Word).toNat < (0x1F90 : Word).toNat ∧ (0x1F68 : Word).toNat < (0x1F90 : Word).toNat ∧
      s.opq < ((0x1F40 : Word).toNat : Rat) * (1 / 800) / divider s.session + s.session.vDiode ∧
      s.opq < ((0x1F68 : Word).toNat : Rat) * (1 / 800) / divider s.session + s.session.vDiode := by decide +kernel

/-- An explicit timeout of 0; timeouts of 1, 1000 and 2500; the default of 100000. -/
theorem witness_WaitPeakWithNoEdgeTimesOut :
    ((scripted 28 quietDraw).legal ∧ (scripted 28 quietDraw).session.alertPin = true ∧ (scripted 28 quietDraw).opt = 0 ∧
      (List.replicate 28 quietDraw).length = 28 ∧ (∀ d ∈ List.replicate 28 quietDraw, d.fails = false) ∧
      (scripted 28 quietDraw).env = List.replicate 28 quietDraw ++ [quietDraw]) ∧
    (∀ p ∈ [(1, 1), (1000, 1), (2500, 3), (100000, 100)],
      let s : State := withOpt { State.reset with
        session := cal10
        env := List.replicate 14 quietDraw ++ silentPasses p.2 ++ List.replicate 14 quietDraw ++ [] } p.1
      s.legal ∧ s.session.alertPin = true ∧ p.1 = s.opt ∧ p.2 = p.1 / 1000 + (if p.1 % 1000 = 0 then 0 else 1)) := by
  decide +kernel

/-- Both clauses. -/
theorem witness_ResetResetsDeviceAndShadow :
    ((scripted 0 quietDraw).fsm = .idle ∧ (scripted 0 quietDraw).env = [quietDraw] ∧ quietDraw.fails = false) ∧
    (scripted 0 failing).fsm = .idle ∧ (scripted 0 failing).env = [failing] ∧ failing.fails = true ∧ flagsQuiet failing := by decide +kernel

/-- Both clauses; the register is free in the statement. -/
theorem witness_RdRegAnswersTheWord :
    ((scripted 0 quietDraw).fsm = .idle ∧ (scripted 0 quietDraw).env = [quietDraw] ∧ quietDraw.fails = false ∧
      flagsQuiet quietDraw) ∧
    (scripted 0 failing).fsm = .idle ∧ (scripted 0 failing).env = [failing] ∧ failing.fails = true ∧ flagsQuiet failing := by decide +kernel

/-- Success, a first read that fails, a second read that fails. -/
theorem witness_CheckIdComparesTheIdentity :
    ((scripted 1 quietDraw).fsm = .idle ∧ (scripted 1 quietDraw).env = [quietDraw, quietDraw] ∧
      quietDraw.fails = false) ∧
    (({ scripted 1 quietDraw with env := [failing, quietDraw] } : State).env = [failing, quietDraw] ∧
      failing.fails = true ∧ flagsQuiet failing) ∧
    (scripted 1 failing).fsm = .idle ∧ (scripted 1 failing).env = [quietDraw, failing] := by decide +kernel

end Sys2Proof.Tests
end

section
/-! What no operation changes, as one relation that every part of an operation keeps (R9, R20, R39), and what the other
host events do to it (R270, R271, R273). -/

namespace Sys2Proof.Machine

/-- The identity registers are as they were (R39). -/
abbrev Device.sameIdentity (d e : Device) : Prop := e.manufacturerId = d.manufacturerId ∧ e.dieId = d.dieId

/-- An access never writes an identity register, whether the device took it or not (R39, R55, R72). -/
theorem regRead_sameIdentity (s : State) (r : DevReg) : s.dev.sameIdentity (regRead r s).state.dev := by
  cases h : regRead r s with
  | ok v t =>
    obtain ⟨_, _, rfl⟩ := regRead_ok s h
    simp [Device.sameIdentity]
  | err e t =>
    obtain ⟨_, _, rfl⟩ := regRead_err s h
    cases s.nextDraw.took <;> simp [Device.sameIdentity]

theorem regWrite_sameIdentity (s : State) (r : DevReg) (v : Word) : s.dev.sameIdentity (regWrite r v s).state.dev := by
  cases h : regWrite r v s with
  | ok u t =>
    obtain ⟨_, rfl⟩ := regWrite_ok s h
    simp [Device.sameIdentity]
  | err e t =>
    obtain ⟨_, _, rfl⟩ := regWrite_err s h
    cases s.nextDraw.took <;> simp [Device.sameIdentity]

/-- From `s` to `t` the session, the ports, the host's events and the identity registers stand, and time has not gone
back. -/
abbrev State.keepsIdentity (s t : State) : Prop := sameSession s t ∧ s.dev.sameIdentity t.dev ∧ s.now ≤ t.now

theorem keepsIdentity_of_accessOnly {s t : State} (h : s.accessOnly t) (hd : s.dev.sameIdentity t.dev) :
    s.keepsIdentity t := by
  obtain ⟨hsession, _, _, _, _, hopt, hopq, _, hhost, hnow⟩ := h
  exact ⟨⟨hsession, hopt, hopq, hhost⟩, hd, hnow⟩

theorem keepsIdentity_refl (s : State) : s.keepsIdentity s := ⟨⟨rfl, rfl, rfl, rfl⟩, ⟨rfl, rfl⟩, Nat.le_refl _⟩

theorem keepsIdentity_trans {a b c : State} (h : a.keepsIdentity b) (g : b.keepsIdentity c) : a.keepsIdentity c := by
  obtain ⟨⟨h1, h2, h3, h4⟩, ⟨h5, h6⟩, hn⟩ := h
  obtain ⟨⟨g1, g2, g3, g4⟩, ⟨g5, g6⟩, gn⟩ := g
  exact ⟨⟨g1.trans h1, g2.trans h2, g3.trans h3, g4.trans h4⟩, ⟨g5.trans h5, g6.trans h6⟩, hn.trans gn⟩

/-- Everything an operation is made of keeps the session and the identity registers. -/
theorem keepsIdentity_closed : Closed State.keepsIdentity where
  refl := keepsIdentity_refl
  trans := keepsIdentity_trans
  read s r := keepsIdentity_of_accessOnly (regRead_accessOnly s r) (regRead_sameIdentity s r)
  write s r v := keepsIdentity_of_accessOnly (regWrite_accessOnly s r v) (regWrite_sameIdentity s r v)
  env := by
    rintro s t ⟨b, n, l, k, hn, rfl⟩
    exact ⟨⟨rfl, rfl, rfl, rfl⟩, ⟨rfl, rfl⟩, hn⟩
  fsm s _ := keepsIdentity_refl s
  wait s _ := keepsIdentity_refl s
  response s _ := keepsIdentity_refl s
  peak s _ := keepsIdentity_refl s
  shadow s _ _ := keepsIdentity_refl s

/-- A command word is one operation or an illegal command, which is answered (R89, R95). -/
theorem runCommand_cases {w : CommandWord} {s t : State} (h : runCommand w s = .next t) :
    (∃ i, decode w = .ok i ∧ exec i s = .next t) ∨ (∃ e, decode w = .error e) ∧ t = s.rejectCommand w := by
  unfold runCommand at h
  split at h
  · exact .inl ⟨_, by assumption, h⟩
  · cases h
    exact .inr ⟨⟨_, by assumption⟩, rfl⟩

/-- A step that answers waited, ran a command, or took one of the two resets (R255, R270, R271). -/
theorem step_cases {s t : State} (h : step s = .next t) :
    s.fsm = .idle ∧
    ((s.host = [] ∧ t = s.pause) ∨
      (∃ w opt opq rest, s.host = .command w opt opq :: rest ∧ runCommand w (s.accept rest opt opq) = .next t) ∨
      (∃ rest, s.host = .blockReset :: rest ∧ t = s.blockReset rest) ∨
      ∃ rest, s.host = .devicePowerOn :: rest ∧ t = s.devicePowerOn rest) := by
  unfold step at h
  split at h
  case isFalse => cases h
  case isTrue hidle =>
    refine ⟨hidle, ?_⟩
    split at h
    next hhost => cases h; exact .inl ⟨hhost, rfl⟩
    next hhost => exact .inr (.inl ⟨_, _, _, _, hhost, h⟩)
    next hhost => cases h; exact .inr (.inr (.inl ⟨_, hhost, rfl⟩))
    next hhost => cases h; exact .inr (.inr (.inr ⟨_, hhost, rfl⟩))

theorem runCommand_keepsIdentity {w : CommandWord} {s t : State} (h : runCommand w s = .next t) :
    s.keepsIdentity t := by
  obtain ⟨i, _, hi⟩ | ⟨_, rfl⟩ := runCommand_cases h
  · exact keepsIdentity_closed.exec hi
  · exact keepsIdentity_trans (keepsIdentity_closed.fsm s _) (keepsIdentity_closed.response _ _)

/-- Taking up a command sets the ports and the pending events, and touches neither the session nor the device. -/
theorem accept_keeps (s : State) (rest : List HostEvent) (opt : Nat) (opq : Rat) :
    (s.accept rest opt opq).session = s.session ∧ (s.accept rest opt opq).dev = s.dev ∧
      s.now ≤ (s.accept rest opt opq).now :=
  ⟨rfl, rfl, pause_now_le _⟩

/-- Settles O13. The operations keep one relation; of the other host events, a command is taken up before it runs, and
neither reset touches the session, the identity registers or the time base. -/
theorem noOperationChangesSessionOrIdentity : Obligations.NoOperationChangesSessionOrIdentity := by
  refine ⟨fun i s t h => ?_, fun s t h => ?_⟩
  · obtain ⟨hsession, ⟨hmid, hdie⟩, hnow⟩ := keepsIdentity_closed.exec h
    exact ⟨hsession, hmid, hdie, hnow⟩
  · obtain ⟨_, ⟨_, rfl⟩ | ⟨w, opt, opq, rest, _, hrun⟩ | ⟨rest, _, rfl⟩ | ⟨rest, _, rfl⟩⟩ := step_cases h
    case inl => exact ⟨pause_session s, rfl, rfl, pause_now_le s⟩
    case inr.inl =>
      obtain ⟨hsession, hdev, hnow⟩ := accept_keeps s rest opt opq
      obtain ⟨⟨ksession, _⟩, ⟨kmid, kdie⟩, know⟩ := runCommand_keepsIdentity hrun
      rw [hsession] at ksession
      rw [hdev] at kmid kdie
      exact ⟨ksession, kmid, kdie, hnow.trans know⟩
    case inr.inr.inl => exact ⟨rfl, rfl, rfl, Nat.le_refl _⟩
    case inr.inr.inr => exact ⟨rfl, rfl, rfl, Nat.le_refl _⟩

end Sys2Proof.Machine
end

section
/-! `round_int` by its three cases (R12), and the tie rules at an exact half. -/

namespace Sys2Proof.Machine

/-- The integer that ROUND_TIE chooses for `q`, which lies half way between its floor and the next integer (R12). -/
def tieChoice (tie : RoundTie) (q : Rat) : Int :=
  match tie with
  | .halfEven => if q.floor % 2 = 0 then q.floor else q.floor + 1
  | .halfAway => if 0 ≤ q then q.floor + 1 else q.floor

/-- R12: the floor, the next integer, or at an exact half the one the tie rule chooses. -/
theorem roundInt_cases (tie : RoundTie) (q : Rat) :
    (q - q.floor < 1 / 2 ∧ roundInt tie q = q.floor) ∨
    (1 / 2 < q - q.floor ∧ roundInt tie q = q.floor + 1) ∨
    (q - q.floor = 1 / 2 ∧ roundInt tie q = tieChoice tie q) := by
  unfold roundInt
  dsimp only
  split
  next hlt => exact .inl ⟨hlt, rfl⟩
  next hge =>
    split
    next hgt => exact .inr (.inl ⟨hgt, rfl⟩)
    next hle => exact .inr (.inr ⟨le_antisymm (not_lt.mp hle) (not_lt.mp hge), by cases tie <;> rfl⟩)

theorem tieChoice_eq_floor_or (tie : RoundTie) (q : Rat) :
    tieChoice tie q = q.floor ∨ tieChoice tie q = q.floor + 1 := by
  cases tie <;> unfold tieChoice <;> dsimp only <;> split <;> simp

theorem tieChoice_halfEven_even (q : Rat) : tieChoice .halfEven q % 2 = 0 := by
  unfold tieChoice
  dsimp only
  split <;> omega

/-- Under half_away the choice for an exact half is farther from zero than the operand. -/
theorem abs_lt_abs_tieChoice_halfAway {q : Rat} (h : q - q.floor = 1 / 2) :
    |q| < |(tieChoice .halfAway q : Rat)| := by
  unfold tieChoice
  dsimp only
  split
  next hq =>
    have hlt : q < ((q.floor + 1 : Int) : Rat) := by push_cast; linarith
    rwa [abs_of_nonneg hq, abs_of_pos (hq.trans_lt hlt)]
  next hq =>
    have hneg : q < 0 := not_le.mp hq
    have hlt : (q.floor : Rat) < q := by linarith
    rw [abs_of_neg hneg, abs_of_neg (hlt.trans hneg)]
    exact neg_lt_neg hlt

/-- Half way between the floor and the next integer both are 1/2 away. -/
theorem abs_sub_tieChoice (tie : RoundTie) {q : Rat} (h : q - q.floor = 1 / 2) :
    |q - (tieChoice tie q : Rat)| = 1 / 2 := by
  rcases tieChoice_eq_floor_or tie q with ht | ht <;> rw [ht]
  · rw [h]; norm_num
  · rw [Int.cast_add, Int.cast_one, ← sub_sub, h]; norm_num

/-- Off the exact half the result is less than 1/2 away, so the second clause of O40 speaks of the tie only. -/
theorem abs_sub_roundInt_lt (tie : RoundTie) {q : Rat} (h : q - q.floor ≠ 1 / 2) :
    |q - (roundInt tie q : Rat)| < 1 / 2 := by
  have hfloor : (q.floor : Rat) ≤ q := Rat.floor_le q
  have hnext : q < q.floor + 1 := by exact_mod_cast Rat.lt_floor_add_one q
  obtain ⟨hlt, hr⟩ | ⟨hgt, hr⟩ | ⟨heq, _⟩ := roundInt_cases tie q
  · rw [hr, abs_of_nonneg (sub_nonneg.mpr hfloor)]
    exact hlt
  · rw [hr, abs_lt]
    push_cast
    constructor <;> linarith
  · exact absurd heq h

/-- Settles O40, by whether the operand lies half way between two integers. -/
theorem roundIntIsNearest : Obligations.RoundIntIsNearest := by
  intro tie q
  by_cases hhalf : q - q.floor = 1 / 2
  · have hr : roundInt tie q = tieChoice tie q := by
      obtain ⟨hlt, _⟩ | ⟨hgt, _⟩ | ⟨_, hr⟩ := roundInt_cases tie q
      · exact absurd hhalf hlt.ne
      · exact absurd hhalf hgt.ne'
      · exact hr
    rw [hr]
    refine ⟨(abs_sub_tieChoice tie hhalf).le, fun _ => ?_⟩
    cases tie with
    | halfEven => exact tieChoice_halfEven_even q
    | halfAway => exact abs_lt_abs_tieChoice_halfAway hhalf
  · have hlt := abs_sub_roundInt_lt tie hhalf
    exact ⟨hlt.le, fun heq => absurd heq hlt.ne⟩

end Sys2Proof.Machine
end

section
/-! Every operation ends with the wait primitive Idle (R28, R193): only the waits leave Idle, and a wait that ends settles
back to it. An error need not be looked at, for raising it sets Idle (R247). -/

namespace Sys2Proof.Machine

/-- A part that ends with a value ends Idle; a part that raises an error may end anywhere. -/
def Res.endsIdle {α : Type} (r : Res α) : Prop :=
  match r with
  | .ok _ t => t.fsm = .idle
  | .err _ _ => True

theorem bind_endsIdle {α β : Type} {r : Res α} {f : α → State → Res β} (hr : r.endsIdle)
    (hf : ∀ a t, t.fsm = .idle → (f a t).endsIdle) : (r.bind f).endsIdle := by
  cases r with
  | ok a t => exact hf a t hr
  | err e t => trivial

theorem reshaped_endsIdle {α β : Type} {r : Res α} (f : α → State → β) (hr : r.endsIdle) :
    (r.bind fun a t => .ok (f a t) t).endsIdle := bind_endsIdle hr fun _ _ ht => ht

/-- An operation that ended Idle or raised an error has answered Idle. -/
theorem answered_fsm_idle {r : Res Result} (hr : r.endsIdle) : r.answered.fsm = .idle := by
  cases r with
  | ok a t => exact hr
  | err e t => rfl

theorem settled_endsIdle (s : State) : (Res.settled s).endsIdle := rfl

theorem endsIdle_of_accessOnly {α : Type} {s : State} {r : Res α} (hs : s.fsm = .idle) (h : s.accessOnly r.state) :
    r.endsIdle := by
  obtain ⟨_, _, hfsm, _⟩ := h
  cases r with
  | ok a t => exact hfsm.trans hs
  | err e t => trivial

/-! ### The waits -/

theorem waitEdgeFor_endsIdle (tmo : Nat) (s : State) : (waitEdgeFor tmo s).endsIdle := by
  unfold waitEdgeFor
  split
  · exact settled_endsIdle _
  · trivial

/-- R200: each way out of the polling loop settles. -/
theorem pollLoop_endsIdle (n : Nat) (s : State) : (pollLoop n s).endsIdle := by
  induction n generalizing s with
  | zero => exact settled_endsIdle _
  | succ n ih =>
    unfold pollLoop
    cases regRead .mask s with
    | err e t => trivial
    | ok me t =>
      rw [bind_ok]
      split
      · exact settled_endsIdle _
      · split
        · exact settled_endsIdle _
        · exact ih _

/-! ### The operations without a wait -/

section
variable {s : State} (hs : s.fsm = .idle)
include hs

theorem regRead_endsIdle (r : DevReg) : (regRead r s).endsIdle := endsIdle_of_accessOnly hs (regRead_accessOnly s r)

theorem regWrite_endsIdle (r : DevReg) (v : Word) : (regWrite r v s).endsIdle :=
  endsIdle_of_accessOnly hs (regWrite_accessOnly s r v)

/-- One RMW and its commit (R101). -/
theorem commit_endsIdle (r : DevReg) (m v : Word) (c : State → Shadow) :
    ((rmw r m v s).bind fun _ t => .ok () (t.withShadow (c t))).endsIdle :=
  bind_endsIdle (endsIdle_of_accessOnly hs (rmw_accessOnly r v m s)) fun _ _ ht => ht

theorem setAvg_endsIdle (count : Nat) : (setAvg count s).endsIdle := by
  unfold setAvg
  split
  · exact commit_endsIdle hs _ _ _ _
  · trivial

theorem setCt_endsIdle (sel us : Nat) : (setCt sel us s).endsIdle := by
  unfold setCt
  split
  · trivial
  · split
    · split <;> exact commit_endsIdle hs _ _ _ _
    · trivial

theorem setCont_endsIdle (b : Bool) : (setCont b s).endsIdle := commit_endsIdle hs _ _ _ _

theorem setMeasV_endsIdle (b : Bool) : (setMeasV b s).endsIdle := commit_endsIdle hs _ _ _ _

theorem setMeasI_endsIdle (b : Bool) : (setMeasI b s).endsIdle := commit_endsIdle hs _ _ _ _

theorem setMode_endsIdle (c v i : Bool) : (setMode c v i s).endsIdle :=
  bind_endsIdle (setCont_endsIdle hs c) fun _ _ ht =>
    bind_endsIdle (setMeasV_endsIdle ht v) fun _ _ hu => setMeasI_endsIdle hu i

theorem setAlertSources_endsIdle (l : List Nat) : (setAlertSources l s).endsIdle := by
  unfold setAlertSources
  split
  · trivial
  · exact commit_endsIdle hs _ _ _ _

theorem setApol_endsIdle (b : Bool) : (setApol b s).endsIdle := commit_endsIdle hs _ _ _ _

theorem setLatch_endsIdle (b : Bool) : (setLatch b s).endsIdle := by
  refine bind_endsIdle (commit_endsIdle hs _ _ _ _) fun _ t ht => ?_
  split
  · exact commit_endsIdle ht _ _ _ _
  · exact ht

theorem readFlag_endsIdle (sel : Nat) : (readFlag sel s).endsIdle := by
  unfold readFlag
  split
  · trivial
  · exact reshaped_endsIdle _ (regRead_endsIdle hs _)

theorem ofExcept_endsIdle {α : Type} (x : Except OpError α) : (Res.ofExcept x s).endsIdle := by
  cases x with
  | ok a => exact hs
  | error e => trivial

theorem readVolts_endsIdle : (readVolts s).endsIdle := reshaped_endsIdle _ (regRead_endsIdle hs _)

theorem setLimit_endsIdle (x : Rat) : (setLimit x s).endsIdle := by
  unfold setLimit
  split
  · trivial
  · exact bind_endsIdle (ofExcept_endsIdle hs _) fun _ _ ht => regWrite_endsIdle ht _ _

theorem getLimit_endsIdle : (getLimit s).endsIdle := by
  unfold getLimit
  split
  · trivial
  · exact reshaped_endsIdle _ (regRead_endsIdle hs _)

theorem resetDevice_endsIdle : (resetDevice s).endsIdle := bind_endsIdle (regWrite_endsIdle hs _ _) fun _ _ ht => ht

theorem readRegister_endsIdle (a : Byte) : (readRegister a s).endsIdle := by
  unfold readRegister
  split
  · trivial
  · exact regRead_endsIdle hs _

theorem checkIdentity_endsIdle : (checkIdentity s).endsIdle :=
  bind_endsIdle (regRead_endsIdle hs _) fun _ _ ht => reshaped_endsIdle _ (regRead_endsIdle ht _)

/-! ### WAIT_PEAK -/

/-- The five setters that an override and a restore run in this order (R202, R203). -/
theorem configure_endsIdle (avg vct ict : Nat) (c v i : Bool) (l : List Nat) :
    ((setAvg avg s).bind fun _ s => (setCt 0 vct s).bind fun _ s => (setCt 1 ict s).bind fun _ s =>
      (setMode c v i s).bind fun _ s => setAlertSources l s).endsIdle :=
  bind_endsIdle (setAvg_endsIdle hs _) fun _ _ h1 =>
    bind_endsIdle (setCt_endsIdle h1 _ _) fun _ _ h2 =>
      bind_endsIdle (setCt_endsIdle h2 _ _) fun _ _ h3 =>
        bind_endsIdle (setMode_endsIdle h3 _ _ _) fun _ _ h4 => setAlertSources_endsIdle h4 _

end

/-- R205: a pass of the loop waits, reads, and samples after an edge. -/
theorem peakLoop_endsIdle (tmo : Nat) (thr : Rat) (n : Nat) {s : State} (hs : s.fsm = .idle) :
    (peakLoop tmo thr n s).endsIdle := by
  induction n generalizing s with
  | zero => exact hs
  | succ n ih =>
    unfold peakLoop
    split
    · exact hs
    · refine bind_endsIdle (waitEdgeFor_endsIdle _ _) fun edge t ht => bind_endsIdle (regRead_endsIdle ht _) fun _ u hu => ?_
      split
      · refine bind_endsIdle (readVolts_endsIdle hu) fun v x hx => ?_
        split
        · exact hx
        · exact ih hx
      · exact ih hu

theorem waitPeakFor_endsIdle (tmo : Nat) (thr : Rat) {s : State} (hs : s.fsm = .idle) :
    (waitPeakFor tmo thr s).endsIdle := by
  have hstart : s.startPeak.fsm = .idle := hs
  unfold waitPeakFor
  split
  · refine bind_endsIdle (configure_endsIdle hstart _ _ _ _ _ _ _) fun _ t ht =>
      bind_endsIdle (peakLoop_endsIdle _ _ _ ht) fun found u hu =>
        bind_endsIdle (configure_endsIdle hu _ _ _ _ _ _ _) fun _ v hv => ?_
    split
    · exact hv
    · trivial
  · trivial

/-- R28: an operation taken up Idle ends Idle. -/
theorem exec_fsm_idle {i : Instr} {s t : State} (hs : s.fsm = .idle) (ht : exec i s = .next t) : t.fsm = .idle := by
  cases i with
  | setAvg count => cases ht; exact answered_fsm_idle (reshaped_endsIdle _ (setAvg_endsIdle hs _))
  | setCt sel us => cases ht; exact answered_fsm_idle (reshaped_endsIdle _ (setCt_endsIdle hs _ _))
  | setCont b => cases ht; exact answered_fsm_idle (reshaped_endsIdle _ (setCont_endsIdle hs b))
  | setMeasv b => cases ht; exact answered_fsm_idle (reshaped_endsIdle _ (setMeasV_endsIdle hs b))
  | setMeasi b => cases ht; exact answered_fsm_idle (reshaped_endsIdle _ (setMeasI_endsIdle hs b))
  | setMode c v m => cases ht; exact answered_fsm_idle (reshaped_endsIdle _ (setMode_endsIdle hs c v m))
  | getCfg => cases ht; exact hs
  | setAlertSrc a b c d e f => cases ht; exact answered_fsm_idle (reshaped_endsIdle _ (setAlertSources_endsIdle hs _))
  | getAlert => cases ht; exact hs
  | setApol b => cases ht; exact answered_fsm_idle (reshaped_endsIdle _ (setApol_endsIdle hs b))
  | setLatch b => cases ht; exact answered_fsm_idle (reshaped_endsIdle _ (setLatch_endsIdle hs b))
  | readFlag sel => cases ht; exact answered_fsm_idle (reshaped_endsIdle _ (readFlag_endsIdle hs _))
  | raw2v raw => cases ht; exact hs
  | raw2i raw => cases ht; exact hs
  | raw2p raw => cases ht; exact hs
  | v2raw => cases ht; exact answered_fsm_idle (reshaped_endsIdle _ (ofExcept_endsIdle hs _))
  | i2raw => cases ht; exact answered_fsm_idle (reshaped_endsIdle _ (ofExcept_endsIdle hs _))
  | p2raw => cases ht; exact answered_fsm_idle (reshaped_endsIdle _ (ofExcept_endsIdle hs _))
  | readV => cases ht; exact answered_fsm_idle (reshaped_endsIdle _ (readVolts_endsIdle hs))
  | readI =>
    cases ht
    exact answered_fsm_idle (reshaped_endsIdle _ (reshaped_endsIdle (fun raw _ => rawToAmps raw) (regRead_endsIdle hs _)))
  | readP =>
    cases ht
    exact answered_fsm_idle
      (reshaped_endsIdle _ (reshaped_endsIdle (fun raw t => rawToWatts t.session raw) (regRead_endsIdle hs _)))
  | setAlertLimit => cases ht; exact answered_fsm_idle (reshaped_endsIdle _ (setLimit_endsIdle hs _))
  | getAlertLimit => cases ht; exact answered_fsm_idle (reshaped_endsIdle _ (getLimit_endsIdle hs))
  | autoTmo => cases ht; exact hs
  | waitEdge a => cases ht; exact answered_fsm_idle (reshaped_endsIdle _ (waitEdgeFor_endsIdle _ s))
  | waitFlag a => cases ht; exact answered_fsm_idle (reshaped_endsIdle _ (pollLoop_endsIdle _ _))
  | waitPeak a => cases ht; exact answered_fsm_idle (waitPeakFor_endsIdle _ _ hs)
  | reset => cases ht; exact answered_fsm_idle (reshaped_endsIdle _ (resetDevice_endsIdle hs))
  | rdReg sel => cases ht; exact answered_fsm_idle (reshaped_endsIdle _ (readRegister_endsIdle hs sel))
  | checkId => cases ht; exact answered_fsm_idle (checkIdentity_endsIdle hs)

end Sys2Proof.Machine
end

section
/-! The legal registers as an invariant of the step (R21 to R24, R28, R35, R36), and the values at reset (R42). -/

namespace Sys2Proof.Machine

/-- From `s` to `t` a legal shadow stays legal, and so does a legal device. -/
abbrev State.keepsLegal (s t : State) : Prop := (s.sh.legal → t.sh.legal) ∧ (s.dev.legal → t.dev.legal)

theorem keepsLegal_refl (s : State) : s.keepsLegal s := ⟨id, id⟩

theorem keepsLegal_of_accessOnly {s t : State} (h : s.accessOnly t) (hd : s.dev.legal → t.dev.legal) :
    s.keepsLegal t := by
  obtain ⟨_, hsh, _⟩ := h
  exact ⟨fun hs => hsh ▸ hs, hd⟩

/-- Everything an operation is made of keeps shadow and device legal: the accesses by the device contract, the commits
because each is legal when the shadow before it is. -/
theorem keepsLegal_closed : Closed State.keepsLegal where
  refl := keepsLegal_refl
  trans h g := ⟨g.1 ∘ h.1, g.2 ∘ h.2⟩
  read s r := keepsLegal_of_accessOnly (regRead_accessOnly s r) (regRead_legal r s)
  write s r v := keepsLegal_of_accessOnly (regWrite_accessOnly s r v) (regWrite_legal r v s)
  env := by
    rintro s t ⟨b, n, l, k, _, rfl⟩
    exact keepsLegal_refl s
  fsm s _ := keepsLegal_refl s
  wait s _ := keepsLegal_refl s
  response s _ := keepsLegal_refl s
  peak s _ := keepsLegal_refl s
  shadow _ _ hx := ⟨hx, id⟩

theorem exec_legal {i : Instr} {s t : State} (hs : s.legal) (ht : exec i s = .next t) : t.legal := by
  obtain ⟨hidle, hsh, hdev⟩ := hs
  obtain ⟨ksh, kdev⟩ := keepsLegal_closed.exec ht
  exact ⟨exec_fsm_idle hidle ht, ksh hsh, kdev hdev⟩

theorem accept_legal {s : State} (hs : s.legal) (rest : List HostEvent) (opt : Nat) (opq : Rat) :
    (s.accept rest opt opq).legal := hs

theorem runCommand_legal {w : CommandWord} {s t : State} (hs : s.legal) (h : runCommand w s = .next t) : t.legal := by
  obtain ⟨i, _, hi⟩ | ⟨_, rfl⟩ := runCommand_cases h
  · exact exec_legal hs hi
  · obtain ⟨_, hsh, hdev⟩ := hs
    exact ⟨rfl, hsh, hdev⟩

theorem shadowReset_legal : Shadow.reset.legal := by decide

/-- A device reset stores legal words whatever the device held (R42, R271). -/
theorem resetRegs_legal (d : Device) : d.resetRegs.legal :=
  ⟨(by decide : (0x6127 : Word) &&& 0xF000 = configFixed), (by decide : (0 : Word) &&& maskReserved = 0)⟩

/-- Settles O11, by what the step did: it waited, ran a command, or took one of the two resets. -/
theorem stepKeepsRegistersLegal : Obligations.StepKeepsRegistersLegal := by
  intro s t hs h
  obtain ⟨hidle, hsh, hdev⟩ := hs
  obtain ⟨_, ⟨_, rfl⟩ | ⟨w, opt, opq, rest, _, hrun⟩ | ⟨rest, _, rfl⟩ | ⟨rest, _, rfl⟩⟩ := step_cases h
  case inl => exact ⟨hidle, hsh, hdev⟩
  case inr.inl => exact runCommand_legal (accept_legal ⟨hidle, hsh, hdev⟩ rest opt opq) hrun
  case inr.inr.inl => exact ⟨rfl, shadowReset_legal, hdev⟩
  case inr.inr.inr => exact ⟨hidle, hsh, resetRegs_legal s.dev⟩

/-- Settles O9, field by field: each value stands written in `Shadow.reset`, `State.reset` and `Device.reset`. -/
theorem resetStateHoldsTheSpecsValues : Obligations.ResetStateHoldsTheSpecsValues := by
  have hshadow : State.reset.sh = Shadow.reset := rfl
  have hdevice : State.reset.dev = Device.reset := rfl
  unfold Obligations.ResetStateHoldsTheSpecsValues
  rw [hshadow, hdevice]
  exact ⟨rfl, rfl, rfl, rfl, rfl, rfl, by decide⟩

end Sys2Proof.Machine
end

section
/-! A relation that reads and the environment keep is kept by every operation that only reads (R62, R63, R198). -/

namespace Sys2Proof.Machine

/-- `Closed.exec` for the operations that only read: the relation need not hold across a write or a commit. -/
theorem ReadClosed.exec_reader {R : State → State → Prop} (h : ReadClosed R) {i : Instr} {s t : State}
    (hi : i.readsOnly = true) (ht : exec i s = .next t) : R s t := by
  have quantity : ∀ {r : Res Rat}, R s r.state → R s r.quantity.answered := fun hr =>
    h.answered (h.reshaped Result.quantity hr)
  have count : ∀ {r : Res (Word × Rat)}, R s r.state → R s r.count.answered := fun hr =>
    h.answered (h.reshaped (fun p : Word × Rat => Result.count p.1 p.2) hr)
  cases i with
  | getCfg => cases ht; exact h.response s _
  | getAlert => cases ht; exact h.response s _
  | readFlag sel => cases ht; exact h.answered (h.reshaped Result.bit (h.readFlag _ s))
  | raw2v raw => cases ht; exact h.response s _
  | raw2i raw => cases ht; exact h.response s _
  | raw2p raw => cases ht; exact h.response s _
  | v2raw => cases ht; exact count (h.ofExcept _ s)
  | i2raw => cases ht; exact count (h.ofExcept _ s)
  | p2raw => cases ht; exact count (h.ofExcept _ s)
  | readV => cases ht; exact quantity (h.readVolts s)
  | readI => cases ht; exact quantity (h.readAmps s)
  | readP => cases ht; exact quantity (h.readWatts s)
  | getAlertLimit => cases ht; exact quantity (h.getLimit s)
  | autoTmo => cases ht; exact h.response s _
  | waitEdge a => cases ht; exact h.answered (h.reshaped Result.bit (h.waitEdgeFor _ s))
  | waitFlag a => cases ht; exact h.answered (h.reshaped Result.bit (h.waitFlagFor _ s))
  | rdReg sel => cases ht; exact h.answered (h.reshaped Result.word (h.readRegister _ s))
  | checkId => cases ht; exact h.answered (h.checkIdentity s)
  | _ => cases hi

/-- A read, successful or failed, leaves every stored bit (R62, R63, R72). -/
theorem regRead_stored (s : State) (r q : DevReg) : (regRead r s).state.dev.stored q = s.dev.stored q := by
  cases h : regRead r s with
  | ok v t =>
    obtain ⟨_, _, rfl⟩ := regRead_ok s h
    simp
  | err e t =>
    obtain ⟨_, _, rfl⟩ := regRead_err s h
    cases s.nextDraw.took <;> simp

/-- From `s` to `t` the shadow and every stored device bit stand. -/
abbrev State.storesNothing (s t : State) : Prop := t.sh = s.sh ∧ ∀ r, t.dev.stored r = s.dev.stored r

theorem storesNothing_refl (s : State) : s.storesNothing s := ⟨rfl, fun _ => rfl⟩

theorem storesNothing_trans {a b c : State} (h : a.storesNothing b) (g : b.storesNothing c) : a.storesNothing c :=
  ⟨g.1.trans h.1, fun r => (g.2 r).trans (h.2 r)⟩

theorem regRead_storesNothing (s : State) (r : DevReg) : s.storesNothing (regRead r s).state := by
  obtain ⟨_, hsh, _⟩ := regRead_accessOnly s r
  exact ⟨hsh, regRead_stored s r⟩

theorem storesNothing_readClosed : ReadClosed State.storesNothing where
  refl := storesNothing_refl
  trans := storesNothing_trans
  read := regRead_storesNothing
  env := by
    rintro s t ⟨b, n, l, k, _, rfl⟩
    exact storesNothing_refl s
  fsm s _ := storesNothing_refl s
  wait s _ := storesNothing_refl s
  response s _ := storesNothing_refl s

/-- Settles O18: every part of a reading operation stores nothing, the reads by the device contract. -/
theorem readersStoreNothing : Obligations.ReadersStoreNothing := fun _ _ _ hi ht =>
  storesNothing_readClosed.exec_reader hi ht

end Sys2Proof.Machine
end

section
/-! The register space under one transaction, successful or failed (R54 to R63, R72). -/

namespace Sys2Proof.Machine

/-! ### The device -/

/-- R57: a write of Configuration with bit 15 set is a device reset. -/
theorem afterWrite_config_reset {v : Word} (h : v.getLsbD 15 = true) (d : Device) :
    d.afterWrite .config v = (d.addressed .config).resetRegs := by
  simp only [Device.afterWrite, h, if_true]

/-- What a write leaves in Mask/Enable depends on the word in it before, and on no other register. -/
theorem afterWrite_mask_congr {d e : Device} (h : e.mask = d.mask) (r : DevReg) (v : Word) :
    (e.afterWrite r v).mask = (d.afterWrite r v).mask := by
  cases r with
  | config =>
    cases hv : v.getLsbD 15 with
    | true => rw [afterWrite_config_reset hv, afterWrite_config_reset hv]; rfl
    | false => rw [afterWrite_config_mask _ _ hv, afterWrite_config_mask _ _ hv, h]
  | mask => rw [afterWrite_mask, afterWrite_mask, h]
  | _ => exact h

theorem evolve_mask_of_quiet (d : Device) {x : Draw} (h : flagsQuiet x) : (d.evolve x).mask = d.mask :=
  ownFlags_quiet _ h

/-! ### The device after a transaction -/

variable {s t : State} {r : DevReg} {v : Word}

/-- A failed read leaves the device as it evolved, or as a successful read would have (R72). -/
theorem regRead_err_dev {e : OpError} (h : regRead r s = .err e t) :
    t.dev = s.dev.evolve s.nextDraw ∨ t.dev = (s.dev.evolve s.nextDraw).afterRead r s.nextDraw := by
  obtain ⟨_, _, rfl⟩ := regRead_err s h
  cases s.nextDraw.took <;> simp

theorem regWrite_ok_dev {u : Unit} (h : regWrite r v s = .ok u t) :
    t.dev = (s.dev.evolve s.nextDraw).afterWrite r v := by
  obtain ⟨_, rfl⟩ := regWrite_ok s h
  rfl

/-- A failed write leaves the device as it evolved, or as a successful write would have (R72). -/
theorem regWrite_err_dev {e : OpError} (h : regWrite r v s = .err e t) :
    t.dev = s.dev.evolve s.nextDraw ∨ t.dev = (s.dev.evolve s.nextDraw).afterWrite r v := by
  obtain ⟨_, _, rfl⟩ := regWrite_err s h
  cases s.nextDraw.took <;> simp

/-- R57 to R59: a successful write, unless it resets the device, leaves the stored bits of every other register. -/
theorem regWrite_ok_stored_other {u : Unit} (h : regWrite r v s = .ok u t) (hv : r = .config → v.getLsbD 15 = false)
    (q : DevReg) (hq : q ≠ r) : t.dev.stored q = s.dev.stored q := by
  rw [regWrite_ok_dev h, afterWrite_stored_other _ _ _ hv _ hq, evolve_stored]

/-! ### The statements -/

/-- Settles O23: the flags are the only bits of a stored register that the device moves. -/
theorem deviceNeverChangesStoredBits : Obligations.DeviceNeverChangesStoredBits := evolve_stored

/-- Settles O21, register by register; a write of Configuration by its reset bit. -/
theorem writesStoreWhatTheContractSays : Obligations.WritesStoreWhatTheContractSays := by
  refine fun s t v u => ⟨fun hv h => ?config, fun hv h => ?reset, fun h => ?mask, fun h => ?limit⟩
  case config =>
    refine ⟨?_, regWrite_ok_stored_other h fun _ => hv⟩
    rw [regWrite_ok_dev h, afterWrite_config _ _ hv]
    rfl
  case reset =>
    rw [regWrite_ok_dev h, afterWrite_config_reset hv]
    exact ⟨rfl, rfl, rfl, rfl, rfl⟩
  case mask =>
    have hmask : t.dev.mask = storeMask (s.dev.evolve s.nextDraw).mask v := by
      rw [regWrite_ok_dev h, afterWrite_mask]
    rw [hmask]
    refine ⟨storeMask_storedMask _ _, fun hq => ?_, storeMask_reserved _ _, regWrite_ok_stored_other h nofun⟩
    rw [storeMask_flags, evolve_mask_of_quiet _ hq]
  case limit =>
    refine ⟨?_, regWrite_ok_stored_other h nofun⟩
    rw [regWrite_ok_dev h, afterWrite_limit]

/-- Settles O22: a read returns what the device holds once it has evolved, and then clears flags of that word. -/
theorem readingMaskEnableClearsFlags : Obligations.ReadingMaskEnableClearsFlags := by
  intro s t r v h
  have hstored := regRead_stored s r
  rw [h] at hstored
  obtain ⟨_, hv, ht⟩ := regRead_ok s h
  have hmask : t.dev.mask = if r = .mask then clearOnRead (s.dev.evolve s.nextDraw).mask s.nextDraw
      else (s.dev.evolve s.nextDraw).mask := by
    rw [ht]
    exact afterRead_mask _ _ _
  refine ⟨hstored, fun hr => ?_, fun hr hq => ?_⟩
  · have hread : v = (s.dev.evolve s.nextDraw).mask := by rw [hv, hr]; rfl
    rw [hmask, if_pos hr, ← hread]
    exact ⟨clearOnRead_flags _ _, clearOnRead_stored _ _, fun hq => hread.trans (evolve_mask_of_quiet _ hq)⟩
  · rw [hmask, if_neg hr, evolve_mask_of_quiet _ hq]

/-- R72, U12: Mask/Enable after a failed read, where the device changes no flag by itself. -/
theorem regRead_err_mask {e : OpError} (h : regRead r s = .err e t) (hq : flagsQuiet s.nextDraw) :
    if r = .mask then flagsOldOrRead s.dev.mask t.dev.mask s.nextDraw else t.dev.mask = s.dev.mask := by
  have hquiet := evolve_mask_of_quiet s.dev hq
  rcases regRead_err_dev h with hd | hd
  case inl =>
    rw [hd, hquiet]
    split
    · exact .inl rfl
    · rfl
  case inr =>
    rw [hd, afterRead_mask, hquiet]
    split
    · exact .inr ⟨clearOnRead_flags _ _, clearOnRead_stored _ _⟩
    · rfl

/-- Settles O24, by whether the failed transaction had its effect. -/
theorem failedTransactionsKeepOldOrNew : Obligations.FailedTransactionsKeepOldOrNew := by
  refine fun s t r e => ⟨fun h => ?read, fun v h => ?write⟩
  case read =>
    have hstored := regRead_stored s r
    rw [h] at hstored
    obtain ⟨_, he, _⟩ := regRead_err s h
    exact ⟨he, hstored, regRead_err_mask h⟩
  case write =>
    obtain ⟨_, he, _⟩ := regWrite_err s h
    refine ⟨he, ?_⟩
    rcases regWrite_err_dev h with hd | hd
    case inl =>
      rw [hd]
      exact .inl ⟨evolve_stored _ _, evolve_mask_of_quiet _⟩
    case inr =>
      refine .inr ⟨by rw [hd], fun hq => ?_⟩
      rw [hd, afterWrite_mask_congr (evolve_mask_of_quiet s.dev hq)]

end Sys2Proof.Machine
end

section
/-! The bytes on the wire (R53, R66). -/

namespace Sys2Proof.Machine

/-- R53: the address byte is the device address shifted left by one, with the direction bit below it. -/
theorem addressByte_eq (a : BitVec 7) (isRead : Bool) :
    addressByte a isRead = a.setWidth 8 <<< 1 ||| (BitVec.ofBool isRead).setWidth 8 := by
  rw [addressByte, BitVec.append_def, BitVec.shiftLeftZeroExtend_eq, BitVec.setWidth'_eq]

theorem fromWire_wireBytes (v : Word) : fromWire (wireBytes v).1 (wireBytes v).2 = v := by
  have hjoin : fromWire (wireBytes v).1 (wireBytes v).2 = v.extractLsb' 0 16 :=
    BitVec.extractLsb'_append_extractLsb'_eq_extractLsb' rfl
  rw [hjoin, BitVec.extractLsb'_eq_self]

/-- Settles O25, by the address byte of each direction and the two data bytes joined again. -/
theorem wireFramesAreBigEndian : Obligations.WireFramesAreBigEndian := by
  intro i2c a v
  have hwrite : addressByte i2c false = i2c.setWidth 8 <<< 1 := by rw [addressByte_eq]; simp
  have hread : addressByte i2c true = i2c.setWidth 8 <<< 1 ||| 1 := addressByte_eq i2c true
  exact ⟨by rw [Txn.frame, hwrite]; rfl, by rw [Txn.frame, hwrite, hread]; rfl, fromWire_wireBytes v⟩

end Sys2Proof.Machine
end

section
/-! The opcode map as data (R90, R92): each row an opcode, a format and the operation that the format's operands make.
Decoding is a search of the map, so that what is true of each format is true of every word. -/

namespace Sys2Proof

/-- The formats of R90, each with the operation that its operands make. B and A read the same bits. -/
inductive RowFormat where
  | none (i : Instr)
  | imm (mk : BitVec 16 → Instr)
  | selImm (mk : BitVec 8 → BitVec 16 → Instr)
  | sel (mk : BitVec 8 → Instr)
  | bit (mk : Bool → Instr)
  | mode (mk : Bool → Bool → Bool → Instr)
  | slots (mk : BitVec 4 → BitVec 4 → BitVec 4 → BitVec 4 → BitVec 4 → BitVec 4 → Instr)

/-- How the decoder reads a word of the format. -/
def RowFormat.read (w : CommandWord) : RowFormat → Except DecodeReject Instr
  | .none i => decodeN w i
  | .imm mk => decodeI w mk
  | .selImm mk => decodeSI w mk
  | .sel mk => decodeS w mk
  | .bit mk => decodeB w mk
  | .mode mk => decodeM w mk
  | .slots mk => decodeL w mk

/-- The map R92, in the decoder's order. -/
def opcodeMap : List (BitVec 8 × RowFormat) :=
  [(0x01, .imm .setAvg), (0x02, .selImm .setCt), (0x03, .bit .setCont), (0x04, .bit .setMeasv), (0x05, .bit .setMeasi),
   (0x06, .mode .setMode), (0x07, .none .getCfg), (0x10, .slots .setAlertSrc), (0x11, .none .getAlert),
   (0x12, .bit .setApol), (0x13, .bit .setLatch), (0x14, .sel .readFlag), (0x20, .imm .raw2v), (0x21, .imm .raw2i),
   (0x22, .imm .raw2p), (0x23, .none .v2raw), (0x24, .none .i2raw), (0x25, .none .p2raw), (0x26, .none .readV),
   (0x27, .none .readI), (0x28, .none .readP), (0x29, .none .setAlertLimit), (0x2A, .none .getAlertLimit),
   (0x30, .none .autoTmo), (0x31, .bit .waitEdge), (0x32, .bit .waitFlag), (0x33, .bit .waitPeak), (0x40, .none .reset),
   (0x41, .sel .rdReg), (0x42, .none .checkId)]

/-- Search a map for the word's opcode and read the word by the format found. -/
def readBy (w : CommandWord) : List (BitVec 8 × RowFormat) → Except DecodeReject Instr
  | [] => .error (.unassignedOpcode (opcodeField w))
  | (op, f) :: rest => if opcodeField w = op then f.read w else readBy w rest

/-- The decoder is the search of R92's map. -/
theorem decode_eq_readBy (w : CommandWord) : decode w = readBy w opcodeMap := rfl

theorem opcodeMap_nodup : (opcodeMap.map Prod.fst).Nodup := by decide

/-- A search whose opcodes are distinct accepts exactly what the row of the word's opcode accepts. -/
theorem readBy_ok_iff {w : CommandWord} {i : Instr} {l : List (BitVec 8 × RowFormat)} (hl : (l.map Prod.fst).Nodup) :
    readBy w l = .ok i ↔ ∃ row ∈ l, opcodeField w = row.1 ∧ row.2.read w = .ok i := by
  induction l with
  | nil => simp [readBy]
  | cons row rest ih =>
    obtain ⟨op, f⟩ := row
    rw [List.map_cons, List.nodup_cons] at hl
    obtain ⟨hfresh, hrest⟩ := hl
    rw [readBy, List.exists_mem_cons_iff]
    split
    case isTrue hop =>
      have hother : ¬ ∃ row ∈ rest, opcodeField w = row.1 ∧ row.2.read w = .ok i := by
        rintro ⟨row, hrow, hop', _⟩
        exact hfresh (List.mem_map.mpr ⟨row, hrow, hop'.symm.trans hop⟩)
      rw [or_iff_left hother, and_iff_right hop]
    case isFalse hop => simp [hop, ih hrest]

/-- R92: a word decodes to what the row of its opcode reads. -/
theorem decode_ok_iff {w : CommandWord} {i : Instr} :
    decode w = .ok i ↔ ∃ row ∈ opcodeMap, opcodeField w = row.1 ∧ row.2.read w = .ok i := by
  rw [decode_eq_readBy, readBy_ok_iff opcodeMap_nodup]

/-! ### Encoding and decoding -/

/-- The operations of a format are encoded in it, under the opcode `op`. -/
def RowFormat.encodedUnder (op : BitVec 8) : RowFormat → Prop
  | .none i => encode i = encodeN op
  | .imm mk => ∀ x, encode (mk x) = encodeI op x
  | .selImm mk => ∀ x y, encode (mk x y) = encodeSI op x y
  | .sel mk => ∀ x, encode (mk x) = encodeS op x
  | .bit mk => ∀ b, encode (mk b) = encodeB op b
  | .mode mk => ∀ c v i, encode (mk c v i) = encodeM op c v i
  | .slots mk => ∀ a b c d e f, encode (mk a b c d e f) = encodeL op a b c d e f

/-- The operation `i` is one of the format's. -/
def RowFormat.makes (i : Instr) : RowFormat → Prop
  | .none j => i = j
  | .imm mk => ∃ x, i = mk x
  | .selImm mk => ∃ x y, i = mk x y
  | .sel mk => ∃ x, i = mk x
  | .bit mk => ∃ b, i = mk b
  | .mode mk => ∃ c v m, i = mk c v m
  | .slots mk => ∃ a b c d e f, i = mk a b c d e f

/-- The encoder agrees with every row of the map. -/
theorem opcodeMap_encodedUnder : ∀ row ∈ opcodeMap, row.2.encodedUnder row.1 := by
  simp only [opcodeMap, List.forall_mem_cons, List.not_mem_nil, false_implies, implies_true, RowFormat.encodedUnder,
    encode, Instr.opcode, and_self]

/-- Every operation stands in the map. -/
theorem exists_row_makes (i : Instr) : ∃ row ∈ opcodeMap, row.2.makes i := by
  cases i <;> simp [opcodeMap, RowFormat.makes, -Bool.exists_bool]

/-- A format's reader gets back the operands that were encoded in it. -/
theorem read_encode {op : BitVec 8} {f : RowFormat} {i : Instr} (hf : f.encodedUnder op) (hi : f.makes i) :
    opcodeField (encode i) = op ∧ f.read (encode i) = .ok i := by
  cases f with
  | none j =>
    subst hi
    rw [hf]
    exact ⟨opcodeField_encodeN op, by simp [RowFormat.read, decodeN, zero_encodeN, ifZero]⟩
  | imm mk =>
    obtain ⟨x, rfl⟩ := hi
    rw [hf x]
    exact ⟨opcodeField_encodeI op x, by simp [RowFormat.read, decodeI, zero_encodeI, immField_encodeI, ifZero]⟩
  | selImm mk =>
    obtain ⟨x, y, rfl⟩ := hi
    rw [hf x y]
    exact ⟨opcodeField_encodeSI op x y, by simp [RowFormat.read, decodeSI, selField_encodeSI, immField_encodeSI]⟩
  | sel mk =>
    obtain ⟨x, rfl⟩ := hi
    rw [hf x]
    exact ⟨opcodeField_encodeS op x, by simp [RowFormat.read, decodeS, zero_encodeS, selField_encodeS, ifZero]⟩
  | bit mk =>
    obtain ⟨b, rfl⟩ := hi
    rw [hf b]
    exact ⟨opcodeField_encodeB op b, by simp [RowFormat.read, decodeB, zero_encodeB, bit_encodeB, ifZero]⟩
  | mode mk =>
    obtain ⟨c, v, m, rfl⟩ := hi
    rw [hf c v m]
    obtain ⟨hc, hv, hm⟩ := bits_encodeM op c v m
    exact ⟨opcodeField_encodeM op c v m, by simp [RowFormat.read, decodeM, zero_encodeM, hc, hv, hm, ifZero]⟩
  | slots mk =>
    obtain ⟨a, b, c, d, e, g, rfl⟩ := hi
    rw [hf a b c d e g]
    obtain ⟨ha, hb, hc, hd, he, hg⟩ := slots_encodeL op a b c d e g
    exact ⟨opcodeField_encodeL op a b c d e g, by rw [RowFormat.read, decodeL, ha, hb, hc, hd, he, hg]⟩

/-- A word that a format's reader accepts is the encoding of what it read. -/
theorem encode_of_read {f : RowFormat} {w : CommandWord} {i : Instr} (hf : f.encodedUnder (opcodeField w))
    (h : f.read w = .ok i) : encode i = w := by
  cases f with
  | none j => obtain ⟨rfl, hw⟩ := decodeN_ok h; exact hf.trans hw
  | imm mk => obtain ⟨rfl, hw⟩ := decodeI_ok h; exact (hf _).trans hw
  | selImm mk => obtain ⟨rfl, hw⟩ := decodeSI_ok h; exact (hf _ _).trans hw
  | sel mk => obtain ⟨rfl, hw⟩ := decodeS_ok h; exact (hf _).trans hw
  | bit mk => obtain ⟨rfl, hw⟩ := decodeB_ok h; exact (hf _).trans hw
  | mode mk => obtain ⟨rfl, hw⟩ := decodeM_ok h; exact (hf _ _ _).trans hw
  | slots mk => obtain ⟨rfl, hw⟩ := decodeL_ok h; exact (hf _ _ _ _ _ _).trans hw

theorem decode_encode (i : Instr) : decode (encode i) = .ok i := by
  obtain ⟨row, hrow, hmakes⟩ := exists_row_makes i
  obtain ⟨hop, hread⟩ := read_encode (opcodeMap_encodedUnder row hrow) hmakes
  exact decode_ok_iff.mpr ⟨row, hrow, hop, hread⟩

theorem encode_of_decode {w : CommandWord} {i : Instr} (h : decode w = .ok i) : encode i = w := by
  obtain ⟨row, hrow, hop, hread⟩ := decode_ok_iff.mp h
  exact encode_of_read (hop ▸ opcodeMap_encodedUnder row hrow) hread

/-- Settles O1: every operation stands in a row of the map, and in each row reading and encoding are inverse. -/
theorem decodeAndEncodeAgree : Obligations.DecodeAndEncodeAgree := by
  refine ⟨decode_encode, fun w => ?_⟩
  cases h : decode w with
  | ok i => exact .inl ⟨i, rfl, encode_of_decode h⟩
  | error r => exact .inr ⟨r, rfl⟩

/-- Settles O3: the seven legal words are encodings; the last has bit 0 set, which format N fixes to zero. -/
theorem writtenOutWordsDecode : Obligations.WrittenOutWordsDecode :=
  ⟨decode_encode (.setAvg 512), decode_encode (.setCt 1 204), decode_encode (.setMode false true false),
    decode_encode (.setAlertSrc 0 1 2 5 0xF 0xF), decode_encode (.readFlag 1), decode_encode (.waitEdge true),
    decode_encode (.rdReg 0xFE), rfl⟩

end Sys2Proof
end

section
/-! Matches and masks (R95(a)): a row's mask covers the opcode and the bits that its format fixes to zero. -/

namespace Sys2Proof

/-- Where the must-be-zero bits of a format begin and how many they are (R90). -/
def RowFormat.zeroField : RowFormat → Nat × Nat
  | .none _ => (0, 24)
  | .imm _ => (16, 8)
  | .selImm _ => (0, 0)
  | .sel _ => (0, 16)
  | .bit _ => (1, 23)
  | .mode _ => (3, 21)
  | .slots _ => (0, 0)

theorem ifZero_accepts {z : Bool} {w : CommandWord} {j : Instr} : (∃ i, ifZero z w j = .ok i) ↔ z = true := by
  cases z <;> simp [ifZero]

/-- A reader accepts a word exactly when the must-be-zero bits of its format are zero. -/
theorem read_accepts_iff (f : RowFormat) (w : CommandWord) :
    (∃ i, f.read w = .ok i) ↔ w.extractLsb' f.zeroField.1 f.zeroField.2 = 0 := by
  cases f with
  | none _ => exact ifZero_accepts.trans beq_iff_eq
  | imm _ => exact ifZero_accepts.trans beq_iff_eq
  | selImm _ => exact iff_of_true ⟨_, rfl⟩ BitVec.of_length_zero
  | sel _ => exact ifZero_accepts.trans beq_iff_eq
  | bit _ => exact ifZero_accepts.trans beq_iff_eq
  | mode _ => exact ifZero_accepts.trans beq_iff_eq
  | slots _ => exact iff_of_true ⟨_, rfl⟩ BitVec.of_length_zero

/-- The bits below the opcode from `lo` up, `n` of them. -/
def fieldMask (lo n : Nat) : BitVec 24 := (BitVec.allOnes n).setWidth 24 <<< lo

theorem fieldMask_getElem (lo n j : Nat) (hj : j < 24) : (fieldMask lo n)[j] = decide (lo ≤ j ∧ j - lo < n) := by
  simp only [fieldMask, BitVec.getElem_shiftLeft, BitVec.getElem_setWidth, BitVec.getLsbD_allOnes]
  by_cases h : j < lo
  · simp [h]
  · simp [h]
    omega

/-- A mask selects nothing of a word exactly when the field it covers is zero. -/
theorem and_fieldMask_eq_zero_iff (w : CommandWord) (lo n : Nat) (h : lo + n ≤ 24) :
    w.extractLsb' 0 24 &&& fieldMask lo n = 0 ↔ w.extractLsb' lo n = 0 := by
  constructor
  · intro hz
    ext j hj
    have hbit := congrArg (fun x : BitVec 24 => x[lo + j]) hz
    simpa [fieldMask_getElem, hj] using hbit
  · intro hz
    ext j hj
    by_cases hin : lo ≤ j ∧ j - lo < n
    · have hbit := congrArg (fun x : BitVec n => x.getLsbD (j - lo)) hz
      simpa [fieldMask_getElem, hin, BitVec.getLsbD_extractLsb', Nat.add_sub_cancel' hin.1] using hbit
    · simp [fieldMask_getElem, hin]

theorem append_eq_append_iff {n m : Nat} {a c : BitVec n} {b d : BitVec m} : a ++ b = c ++ d ↔ a = c ∧ b = d := by
  refine ⟨fun h => ⟨?_, ?_⟩, fun ⟨hac, hbd⟩ => hac ▸ hbd ▸ rfl⟩
  · simpa [extract_high, extract_all] using congrArg (fun x => x.extractLsb' m n) h
  · simpa [extract_low, extract_all] using congrArg (fun x => x.extractLsb' 0 m) h

/-- The match and the mask of a row of the opcode map. -/
def matchAndMask (row : BitVec 8 × RowFormat) : CommandWord × CommandWord :=
  (encodeN row.1, BitVec.allOnes 8 ++ fieldMask row.2.zeroField.1 row.2.zeroField.2)

/-- R95(a)'s matches and masks are those of the opcode map. -/
theorem opcodeRows_eq : Machine.opcodeRows = opcodeMap.map matchAndMask := rfl

theorem zeroField_le (f : RowFormat) : f.zeroField.1 + f.zeroField.2 ≤ 24 := by
  cases f <;> simp [RowFormat.zeroField]

/-- A word matches a row exactly when it has the row's opcode and the row's reader accepts it. -/
theorem matches_row_iff (w : CommandWord) (row : BitVec 8 × RowFormat) :
    w &&& (matchAndMask row).2 = (matchAndMask row).1 ↔ opcodeField w = row.1 ∧ ∃ i, row.2.read w = .ok i := by
  have hsplit : w = opcodeField w ++ w.extractLsb' 0 24 := by
    rw [opcodeField, join w 0 24 24 8 rfl, word_eq]
  have hand : w &&& (matchAndMask row).2 =
      opcodeField w ++ (w.extractLsb' 0 24 &&& fieldMask row.2.zeroField.1 row.2.zeroField.2) := by
    conv_lhs => rw [hsplit]
    rw [matchAndMask, BitVec.and_append, BitVec.and_allOnes]
  rw [hand, matchAndMask, encodeN, append_eq_append_iff, and_fieldMask_eq_zero_iff w _ _ (zeroField_le row.2),
    read_accepts_iff]

theorem rejected_iff {w : CommandWord} : (∃ r, decode w = .error r) ↔ ¬ ∃ i, decode w = .ok i := by
  cases decode w <;> simp

/-- Settles O2: both sides ask whether some row of the map has the word's opcode and reads it. -/
theorem illegalWordsMatchNoRow : Obligations.IllegalWordsMatchNoRow := by
  intro w
  rw [rejected_iff, opcodeRows_eq, List.forall_mem_map]
  constructor
  · intro h row hrow hmatch
    obtain ⟨hop, i, hread⟩ := (matches_row_iff w row).mp hmatch
    exact h ⟨i, decode_ok_iff.mpr ⟨row, hrow, hop, hread⟩⟩
  · rintro h ⟨i, hi⟩
    obtain ⟨row, hrow, hop, hread⟩ := decode_ok_iff.mp hi
    exact h row hrow ((matches_row_iff w row).mpr ⟨hop, i, hread⟩)

end Sys2Proof
end

section
/-! What a step does with the host's next command (R89, R91, R95, R255). -/

namespace Sys2Proof.Machine

theorem step_of_command {s : State} {w : CommandWord} {opt : Nat} {opq : Rat} {rest : List HostEvent}
    (hs : s.fsm = .idle) (hhost : s.host = .command w opt opq :: rest) :
    step s = runCommand w (s.accept rest opt opq) := by
  rw [step, if_pos hs, hhost]

theorem runCommand_of_ok {w : CommandWord} {i : Instr} (h : decode w = .ok i) (s : State) :
    runCommand w s = exec i s := by
  rw [runCommand, h]

theorem runCommand_of_error {w : CommandWord} {r : DecodeReject} (h : decode w = .error r) (s : State) :
    runCommand w s = .next (s.rejectCommand w) := by
  rw [runCommand, h]

/-- Settles O4, with the state in which the command has been taken up. -/
theorem stepRunsDecodedOperation : Obligations.StepRunsDecodedOperation := by
  intro s w opt opq rest i hs hhost hi
  refine ⟨s.accept rest opt opq, ?_, rfl, rfl, rfl, rfl, rfl, rfl, rfl, rfl, rfl, rfl, pause_now_le _⟩
  rw [step_of_command hs hhost, runCommand_of_ok hi]

/-- Settles O5: a word that matches no row is rejected by the decoder, and rejecting raises an error and no more. -/
theorem illegalCommandTouchesNothing : Obligations.IllegalCommandTouchesNothing := by
  intro s w opt opq rest hs hhost hrows
  obtain ⟨r, hr⟩ := (illegalWordsMatchNoRow w).mpr hrows
  refine ⟨(s.accept rest opt opq).rejectCommand w, ?_, rfl, rfl, rfl, rfl, hs.symm, rfl, rfl, rfl, rfl⟩
  rw [step_of_command hs hhost, runCommand_of_error hr]

end Sys2Proof.Machine
end

section
/-! Packing and unpacking the Configuration word (R80, R84): each field of a packed word is the setting's index. -/

namespace Sys2Proof.Machine

theorem fieldValue_getLsbD (k base j : Nat) :
    (fieldValue k base).getLsbD j = (decide (j < 16 ∧ base ≤ j) && k.testBit (j - base)) := by
  simp only [fieldValue, BitVec.getLsbD_shiftLeft, BitVec.getLsbD_ofNat]
  grind

/-- Reading a field at its own place gives its content. -/
theorem extract_fieldValue_same (k base n : Nat) (h : base + n ≤ 16) :
    (fieldValue k base).extractLsb' base n = BitVec.ofNat n k := by
  ext j hj
  have hin : base + j < 16 := by omega
  rw [BitVec.getElem_extractLsb', fieldValue_getLsbD, ← BitVec.getLsbD_eq_getElem, BitVec.getLsbD_ofNat]
  simp [hin, hj]

/-- Reading beside a field of width `m` gives nothing. -/
theorem extract_fieldValue_other {k m : Nat} (hk : k < 2 ^ m) (base lo n : Nat)
    (h : lo + n ≤ base ∨ base + m ≤ lo) :
    (fieldValue k base).extractLsb' lo n = 0 := by
  ext j hj
  by_cases hbase : base ≤ lo + j
  · have hbit : k.testBit (lo + j - base) = false :=
      Nat.testBit_lt_two_pow (hk.trans_le (Nat.pow_le_pow_right Nat.two_pos (by omega)))
    simp [fieldValue_getLsbD, hbit]
  · simp [fieldValue_getLsbD, hbase]

/-- A field of one bit that holds a Boolean is that Boolean. -/
theorem getLsbD_of_extract {w : Word} {k : Nat} {b : Bool} (h : w.extractLsb' k 1 = BitVec.ofNat 1 b.toNat) :
    w.getLsbD k = b := by
  calc w.getLsbD k = (w.extractLsb' k 1).getLsbD 0 := by simp
    _ = b := by rw [h]; cases b <;> rfl

/-- The six fields of a packed word hold the table indices and the mode bits that were packed. -/
theorem fields_cfgPack {avg vct ict : Nat} (havg : indexOf Config.avgTable avg < 2 ^ 3)
    (hvct : indexOf Config.ctTable vct < 2 ^ 3) (hict : indexOf Config.ctTable ict < 2 ^ 3) (c v m : Bool) :
    (cfgPack avg vct ict c v m).extractLsb' 9 3 = BitVec.ofNat 3 (indexOf Config.avgTable avg) ∧
    (cfgPack avg vct ict c v m).extractLsb' 6 3 = BitVec.ofNat 3 (indexOf Config.ctTable vct) ∧
    (cfgPack avg vct ict c v m).extractLsb' 3 3 = BitVec.ofNat 3 (indexOf Config.ctTable ict) ∧
    (cfgPack avg vct ict c v m).extractLsb' 2 1 = BitVec.ofNat 1 c.toNat ∧
    (cfgPack avg vct ict c v m).extractLsb' 1 1 = BitVec.ofNat 1 v.toNat ∧
    (cfgPack avg vct ict c v m).extractLsb' 0 1 = BitVec.ofNat 1 m.toNat := by
  have hfixed : configFixed = fieldValue 6 12 := rfl
  have hsix : 6 < 2 ^ 3 := by decide
  have hbit : ∀ b : Bool, b.toNat < 2 ^ 1 := Bool.toNat_lt
  simp (disch := omega) [cfgPack, bitValue, hfixed, BitVec.extractLsb'_or, extract_fieldValue_same,
    extract_fieldValue_other havg, extract_fieldValue_other hvct, extract_fieldValue_other hict,
    extract_fieldValue_other hsix, extract_fieldValue_other (hbit _)]

theorem avgTable_length : Config.avgTable.length = 8 := rfl

theorem ctTable_length : Config.ctTable.length = 8 := rfl

/-- A table of eight members is read at the index of a member. -/
theorem tableAt_indexOf {table : List Nat} (hlen : table.length = 8) {x : Nat} (hx : x ∈ table) :
    indexOf table x < 2 ^ 3 ∧ tableAt table (BitVec.ofNat 3 (indexOf table x)) = x := by
  have hlt : indexOf table x < 2 ^ 3 := (List.idxOf_lt_length_of_mem hx).trans_eq hlen
  refine ⟨hlt, ?_⟩
  rw [tableAt, BitVec.toNat_ofNat, Nat.mod_eq_of_lt hlt, List.getD_eq_getElem?_getD, indexOf, List.getElem?_idxOf hx]
  rfl

/-- A table of eight members has one at each three-bit field of a word (R84). -/
theorem getElem?_tableAt {table : List Nat} (hlen : table.length = 8) (w : Word) (lo : Nat) :
    table[w.toNat / 2 ^ lo % 8]? = some (tableAt table (w.extractLsb' lo 3)) := by
  have hlt : w.toNat / 2 ^ lo % 8 < table.length := by omega
  rw [tableAt, BitVec.extractLsb'_toNat, Nat.shiftRight_eq_div_pow]
  simp [List.getElem?_eq_getElem hlt]

/-- Settles O32: both tables have a member for each of the eight indices, and a packed word holds the indices in its
fields. -/
theorem unpackInvertsPack : Obligations.UnpackInvertsPack := by
  constructor
  · intro w
    exact ⟨_, _, _, getElem?_tableAt avgTable_length w 9, getElem?_tableAt ctTable_length w 6,
      getElem?_tableAt ctTable_length w 3, rfl⟩
  · intro avg vct ict c v m havg hvct hict
    obtain ⟨havg_lt, havg_back⟩ := tableAt_indexOf avgTable_length havg
    obtain ⟨hvct_lt, hvct_back⟩ := tableAt_indexOf ctTable_length hvct
    obtain ⟨hict_lt, hict_back⟩ := tableAt_indexOf ctTable_length hict
    obtain ⟨h9, h6, h3, h2, h1, h0⟩ := fields_cfgPack havg_lt hvct_lt hict_lt c v m
    rw [cfgUnpack, h9, h6, h3, havg_back, hvct_back, hict_back, getLsbD_of_extract h2, getLsbD_of_extract h1,
      getLsbD_of_extract h0]

end Sys2Proof.Machine
end

section
/-! ValidationError comes of the operands alone (R95(b), R241). WAIT_PEAK validates the settings it restores (R203), so
the argument carries along that the parts between its start and its restore leave them as they were recorded. -/

namespace Sys2Proof.Machine

/-! ### Operands inside their legal sets -/

/-- A part that ends with a value leaves WAIT_PEAK's recorded settings at `x`; one that raises an error does not raise
ValidationError. -/
def Res.validates {α : Type} (x : Saved) (r : Res α) : Prop :=
  match r with
  | .ok _ t => t.p.saved = x
  | .err e _ => ∀ n, e ≠ .validation n

section
variable {α β : Type} {x : Saved} {s : State}

theorem bind_validates {r : Res α} {f : α → State → Res β} (hr : r.validates x)
    (hf : ∀ a t, t.p.saved = x → (f a t).validates x) : (r.bind f).validates x := by
  cases r with
  | ok a t => exact hf a t hr
  | err e t => exact hr

theorem reshaped_validates {r : Res α} (f : α → State → β) (hr : r.validates x) :
    (r.bind fun a t => .ok (f a t) t).validates x := bind_validates hr fun _ _ ht => ht

theorem answered_validates {r : Res Result} (hr : r.validates x) (n : Nat) :
    r.answered.resp ≠ .failed (.validation n) := by
  cases r with
  | ok a t => exact fun h => by cases h
  | err e t => exact fun h => hr n (Response.failed.inj h)

theorem settled_validates (hs : s.p.saved = x) : (Res.settled s).validates x := hs

theorem regRead_validates (hs : s.p.saved = x) (r : DevReg) : (regRead r s).validates x := by
  have hkeep := regRead_accessOnly s r
  cases h : regRead r s with
  | ok v t =>
    rw [h] at hkeep
    obtain ⟨_, _, _, _, hp, _⟩ := hkeep
    exact (congrArg PeakRegs.saved hp).trans hs
  | err e t =>
    obtain ⟨_, rfl, _⟩ := regRead_err s h
    exact fun n hn => by cases hn

theorem regWrite_validates (hs : s.p.saved = x) (r : DevReg) (v : Word) : (regWrite r v s).validates x := by
  have hkeep := regWrite_accessOnly s r v
  cases h : regWrite r v s with
  | ok u t =>
    rw [h] at hkeep
    obtain ⟨_, _, _, _, hp, _⟩ := hkeep
    exact (congrArg PeakRegs.saved hp).trans hs
  | err e t =>
    obtain ⟨_, rfl, _⟩ := regWrite_err s h
    exact fun n hn => by cases hn

/-- One RMW and its commit (R101). -/
theorem commit_validates (hs : s.p.saved = x) (r : DevReg) (m v : Word) (c : State → Shadow) :
    ((rmw r m v s).bind fun _ t => .ok () (t.withShadow (c t))).validates x :=
  bind_validates (bind_validates (regRead_validates hs r) fun _ _ ht => regWrite_validates ht r _) fun _ _ ht => ht

/-! #### Setters -/

theorem setAvg_validates (hs : s.p.saved = x) {count : Nat} (h : count ∈ Config.avgTable) :
    (setAvg count s).validates x := by
  rw [setAvg, if_pos h]
  exact commit_validates hs _ _ _ _

theorem setCt_validates (hs : s.p.saved = x) {sel us : Nat} (hsel : sel ≤ 1) (hus : us ∈ Config.ctTable) :
    (setCt sel us s).validates x := by
  rw [setCt, if_neg (by omega), if_pos hus]
  split <;> exact commit_validates hs _ _ _ _

theorem setMode_validates (hs : s.p.saved = x) (c v i : Bool) : (setMode c v i s).validates x :=
  bind_validates (commit_validates hs _ _ _ _) fun _ _ ht =>
    bind_validates (commit_validates ht _ _ _ _) fun _ _ hu => commit_validates hu _ _ _ _

theorem setAlertSources_validates (hs : s.p.saved = x) {l : List Nat} (hl : firstUnrecognized l = none) :
    (setAlertSources l s).validates x := by
  rw [setAlertSources, hl]
  exact commit_validates hs _ _ _ _

theorem setLatch_validates (hs : s.p.saved = x) (b : Bool) : (setLatch b s).validates x := by
  refine bind_validates (commit_validates hs _ _ _ _) fun _ t ht => ?_
  split
  · exact commit_validates ht _ _ _ _
  · exact ht

/-! #### Reads and conversions -/

theorem readFlag_validates (hs : s.p.saved = x) {sel : Nat} (h : sel ≤ 2) : (readFlag sel s).validates x := by
  rw [readFlag, if_neg (by omega)]
  exact reshaped_validates _ (regRead_validates hs _)

theorem readRegister_validates (hs : s.p.saved = x) {a : Byte} {r : DevReg} (h : regAt a = some r) :
    (readRegister a s).validates x := by
  rw [readRegister, h]
  exact regRead_validates hs r

/-- R164: an inverse conversion fails with RangeError only. -/
theorem quantized_validates (hs : s.p.saved = x) (q : Rat) (f : Word → α) :
    (Res.ofExcept ((quantize s.session q).map f) s).validates x := by
  unfold quantize
  split
  · exact fun n hn => by cases hn
  · exact hs

theorem limitToRaw_validates (hs : s.p.saved = x) (u : LimitUnit) (q : Rat) :
    (Res.ofExcept (limitToRaw s.session u q) s).validates x := by
  cases u <;> exact quantized_validates hs _ _

theorem setLimit_validates (hs : s.p.saved = x) (q : Rat) : (setLimit q s).validates x := by
  unfold setLimit
  split
  · exact fun n hn => by cases hn
  · exact bind_validates (limitToRaw_validates hs _ q) fun _ _ ht => regWrite_validates ht _ _

theorem getLimit_validates (hs : s.p.saved = x) : (getLimit s).validates x := by
  unfold getLimit
  split
  · exact fun n hn => by cases hn
  · exact reshaped_validates _ (regRead_validates hs _)

/-! #### Waits -/

/-- Reads, waits and the environment leave the recorded settings. -/
theorem saved_readClosed : ReadClosed fun s t => t.p.saved = s.p.saved where
  refl _ := rfl
  trans h g := g.trans h
  read s r := by
    obtain ⟨_, _, _, _, hp, _⟩ := regRead_accessOnly s r
    exact congrArg PeakRegs.saved hp
  env := by
    rintro s t ⟨b, n, l, k, _, rfl⟩
    rfl
  fsm _ _ := rfl
  wait _ _ := rfl
  response _ _ := rfl

theorem waitEdgeFor_validates (hs : s.p.saved = x) (tmo : Nat) : (waitEdgeFor tmo s).validates x := by
  have hkeep := saved_readClosed.waitEdgeFor tmo s
  unfold waitEdgeFor at hkeep ⊢
  split
  case isTrue hpin =>
    rw [if_pos hpin] at hkeep
    exact settled_validates (hkeep.trans hs)
  case isFalse => exact fun n hn => by cases hn

theorem pollLoop_validates (n : Nat) (hs : s.p.saved = x) : (pollLoop n s).validates x := by
  induction n generalizing s with
  | zero => exact settled_validates hs
  | succ n ih =>
    refine bind_validates (regRead_validates hs _) fun me t ht => ?_
    split
    · exact settled_validates ht
    · split
      · exact settled_validates ht
      · exact ih ht

theorem peakLoop_validates (tmo : Nat) (thr : Rat) (n : Nat) (hs : s.p.saved = x) :
    (peakLoop tmo thr n s).validates x := by
  induction n generalizing s with
  | zero => exact hs
  | succ n ih =>
    unfold peakLoop
    split
    · exact hs
    · have hpause : s.pause.p.saved = x := hs
      refine bind_validates (waitEdgeFor_validates hpause _) fun edge t ht =>
        bind_validates (regRead_validates ht _) fun _ u hu => ?_
      split
      · refine bind_validates (reshaped_validates _ (regRead_validates hu _)) fun v y hy => ?_
        split
        · exact hy
        · exact ih hy
      · exact ih hu

/-- The five setters that an override and a restore run (R202, R203), for settings that are legal. -/
theorem configure_validates (hs : s.p.saved = x) {avg vct ict : Nat} (havg : avg ∈ Config.avgTable)
    (hvct : vct ∈ Config.ctTable) (hict : ict ∈ Config.ctTable) (c v i : Bool) {l : List Nat}
    (hl : firstUnrecognized l = none) :
    ((setAvg avg s).bind fun _ s => (setCt 0 vct s).bind fun _ s => (setCt 1 ict s).bind fun _ s =>
      (setMode c v i s).bind fun _ s => setAlertSources l s).validates x :=
  bind_validates (setAvg_validates hs havg) fun _ _ ha =>
    bind_validates (setCt_validates ha (by decide) hvct) fun _ _ hb =>
      bind_validates (setCt_validates hb (by decide) hict) fun _ _ hc =>
        bind_validates (setMode_validates hc c v i) fun _ _ hd => setAlertSources_validates hd hl

end

/-- The codes of a collapsed mask are sources (R85). -/
theorem firstUnrecognized_sourcesOf (m : BitVec 6) : firstUnrecognized (sourcesOf m) = none := by
  refine List.find?_eq_none.mpr fun c hc => ?_
  have hcode : c ∈ [0, 1, 2, 3, 4, 5] := List.mem_of_mem_filter hc
  have hle : c ≤ 5 := by
    simp only [List.mem_cons, List.not_mem_nil, or_false] at hcode
    omega
  simpa using hle

/-- WAIT_PEAK restores the shadow it found, so a legal shadow passes the restore's validation. -/
theorem waitPeakFor_validates (tmo : Nat) (thr : Rat) {s : State} (hs : s.sh.legal) :
    (waitPeakFor tmo thr s).validates s.startPeak.p.saved := by
  obtain ⟨havg, hvct, hict, _⟩ := hs
  unfold waitPeakFor
  split
  case isFalse => exact fun n hn => by cases hn
  case isTrue =>
    have hoverride : (peakOverride s.startPeak).validates s.startPeak.p.saved :=
      configure_validates rfl (by decide) (by decide) (by decide) _ _ _ (by decide)
    refine bind_validates hoverride fun _ t ht => bind_validates (peakLoop_validates _ _ _ ht) fun found u hu => ?_
    have hrestore : (peakRestore u.p.saved u).validates s.startPeak.p.saved := by
      rw [hu]
      exact configure_validates hu havg hvct hict _ _ _ (firstUnrecognized_sourcesOf _)
    refine bind_validates hrestore fun _ v hv => ?_
    split
    · exact hv
    · exact fun n hn => by cases hn

/-! ### The legal sets, as the operations test them -/

theorem regAt_none_iff (a : Byte) : regAt a = none ↔ a ∉ Config.mappedAddresses := by
  simp [regAt, Config.mappedAddresses, ite_eq_iff]

/-- R90, R131: a list of slots holds an unrecognized source exactly when a slot is illegal. -/
theorem firstUnrecognized_sourceList (l : List (BitVec 4)) :
    firstUnrecognized (sourceList l) = none ↔ ∀ y ∈ l, Instr.slotLegal y = true := by
  simp only [firstUnrecognized, sourceList, List.find?_eq_none, List.forall_mem_map, List.mem_filter, Instr.slotLegal]
  grind

/-- R95(b): an operation whose operands are legal, from a legal shadow, does not answer ValidationError. -/
theorem exec_of_wellFormed {i : Instr} {s t : State} (hi : i.wellFormed = true) (hs : s.sh.legal)
    (ht : exec i s = .next t) (n : Nat) : t.resp ≠ .failed (.validation n) := by
  have shaped : ∀ {α : Type} {r : Res α} (f : α → State → Result), r.validates s.p.saved →
      (r.bind fun a t => .ok (f a t) t).answered.resp ≠ .failed (.validation n) := fun f hr =>
    answered_validates (reshaped_validates f hr) n
  have setter : ∀ (r : DevReg) (m v : Word) (c : State → Shadow),
      ((rmw r m v s).bind fun _ t => .ok () (t.withShadow (c t))).unit.answered.resp ≠ .failed (.validation n) :=
    fun r m v c => shaped _ (commit_validates rfl r m v c)
  cases i with
  | setAvg count => cases ht; exact shaped _ (setAvg_validates rfl (by simpa [Instr.wellFormed] using hi))
  | setCt sel us =>
    obtain ⟨hsel, hus⟩ : sel.toNat ≤ 1 ∧ us.toNat ∈ Config.ctTable := by simpa [Instr.wellFormed] using hi
    cases ht
    exact shaped _ (setCt_validates rfl hsel hus)
  | setCont b => cases ht; exact setter _ _ _ _
  | setMeasv b => cases ht; exact setter _ _ _ _
  | setMeasi b => cases ht; exact setter _ _ _ _
  | setMode c v m => cases ht; exact shaped _ (setMode_validates rfl c v m)
  | getCfg => cases ht; exact fun h => by cases h
  | setAlertSrc a b c d e f =>
    have hslots : ∀ y ∈ [a, b, c, d, e, f], Instr.slotLegal y = true := by
      simpa [Instr.wellFormed, and_assoc] using hi
    cases ht
    exact shaped _ (setAlertSources_validates rfl ((firstUnrecognized_sourceList _).mpr hslots))
  | getAlert => cases ht; exact fun h => by cases h
  | setApol b => cases ht; exact setter _ _ _ _
  | setLatch b => cases ht; exact shaped _ (setLatch_validates rfl b)
  | readFlag sel => cases ht; exact shaped _ (readFlag_validates rfl (by simpa [Instr.wellFormed] using hi))
  | raw2v raw => cases ht; exact fun h => by cases h
  | raw2i raw => cases ht; exact fun h => by cases h
  | raw2p raw => cases ht; exact fun h => by cases h
  | v2raw => cases ht; exact shaped _ (quantized_validates rfl _ _)
  | i2raw => cases ht; exact shaped _ (quantized_validates rfl _ _)
  | p2raw => cases ht; exact shaped _ (quantized_validates rfl _ _)
  | readV => cases ht; exact shaped _ (reshaped_validates _ (regRead_validates rfl _))
  | readI => cases ht; exact shaped _ (reshaped_validates (fun raw _ => rawToAmps raw) (regRead_validates rfl _))
  | readP => cases ht; exact shaped _ (reshaped_validates _ (regRead_validates rfl _))
  | setAlertLimit => cases ht; exact shaped _ (setLimit_validates rfl _)
  | getAlertLimit => cases ht; exact shaped _ (getLimit_validates rfl)
  | autoTmo => cases ht; exact fun h => by cases h
  | waitEdge a => cases ht; exact shaped _ (waitEdgeFor_validates rfl _)
  | waitFlag a => cases ht; exact shaped _ (pollLoop_validates _ rfl)
  | waitPeak a => cases ht; exact answered_validates (waitPeakFor_validates _ _ hs) n
  | reset => cases ht; exact shaped _ (bind_validates (regWrite_validates rfl _ _) fun _ _ hu => hu)
  | rdReg sel =>
    have hsel : sel ∈ Config.mappedAddresses := by simpa [Instr.wellFormed] using hi
    obtain ⟨r, hr⟩ := Option.ne_none_iff_exists'.mp (mt (regAt_none_iff sel).mp (not_not_intro hsel))
    cases ht
    exact shaped _ (readRegister_validates rfl hr)
  | checkId =>
    cases ht
    exact answered_validates (bind_validates (regRead_validates rfl _) fun _ _ hu =>
      reshaped_validates _ (regRead_validates hu _)) n

/-! ### Operands outside their legal sets -/

/-- R102, R103, R131, R135, R231: an operand outside its legal set is answered with ValidationError. -/
theorem exec_of_illFormed {i : Instr} (s : State) (hi : i.wellFormed = false) :
    ∃ t n, exec i s = .next t ∧ t.resp = .failed (.validation n) := by
  have raises : ∀ {r : Res Result} (n : Nat), r = .err (.validation n) s →
      ∃ t n, complete r = .next t ∧ t.resp = .failed (.validation n) := fun n hr =>
    ⟨_, n, rfl, by rw [hr]; rfl⟩
  cases i with
  | setAvg count =>
    have hcount : count.toNat ∉ Config.avgTable := by simpa [Instr.wellFormed] using hi
    exact raises count.toNat (by rw [setAvg, if_neg hcount, unit_err])
  | setCt sel us =>
    by_cases hsel : 1 < sel.toNat
    · exact raises sel.toNat (by rw [setCt, if_pos hsel, unit_err])
    · have hus : us.toNat ∉ Config.ctTable := by simpa [Instr.wellFormed, Nat.not_lt.mp hsel] using hi
      exact raises us.toNat (by rw [setCt, if_neg hsel, if_neg hus, unit_err])
  | setAlertSrc a b c d e f =>
    have hslots : ¬ ∀ y ∈ [a, b, c, d, e, f], Instr.slotLegal y = true := by
      intro hall
      have : (Instr.setAlertSrc a b c d e f).wellFormed = true := by simpa [Instr.wellFormed, and_assoc] using hall
      rw [hi] at this
      cases this
    obtain ⟨n, hn⟩ := Option.ne_none_iff_exists'.mp (mt (firstUnrecognized_sourceList _).mp hslots)
    exact raises n (by rw [setAlertSources, hn, unit_err])
  | readFlag sel =>
    have hsel : 2 < sel.toNat := by simpa [Instr.wellFormed] using hi
    exact raises sel.toNat (by rw [readFlag, if_pos hsel, bind_err])
  | rdReg sel =>
    have hsel : sel ∉ Config.mappedAddresses := by simpa [Instr.wellFormed] using hi
    exact raises sel.toNat (by rw [readRegister, (regAt_none_iff sel).mpr hsel, bind_err])
  | _ => cases hi

/-- Settles O16: an illegal operand is answered with ValidationError, and a legal one never is. -/
theorem validationErrorMeansIllegalOperand : Obligations.ValidationErrorMeansIllegalOperand := by
  intro i s hs
  obtain ⟨_, hsh, _⟩ := hs
  refine ⟨fun ⟨t, n, ht, hresp⟩ => ?_, exec_of_illFormed s⟩
  by_contra hwf
  exact exec_of_wellFormed (Bool.not_eq_false _ ▸ hwf) hsh ht n hresp

end Sys2Proof.Machine
end

section
/-! What an operation that keeps every part of the state but the response answers with (R50, R108, R241, R248). -/

namespace Sys2Proof.Machine

/-- R247, R248: raising an error in an idle state changes the response and nothing else. -/
theorem raise_of_idle {s : State} (hs : s.fsm = .idle) (e : OpError) : s.raise e = { s with resp := .failed e } := by
  cases s; cases hs; rfl

/-- A part that ends in an idle `s`, with a value or an error, answers with `s` and another response. -/
theorem answered_of_state {r : Res Result} {s : State} (hs : s.fsm = .idle) (hr : r.state = s) :
    r.answered = { s with resp := r.answered.resp } := by
  subst hr
  cases r with
  | ok a t => rfl
  | err e t => exact raise_of_idle hs e

/-- An inverse conversion ends in the state it began in (R164). -/
theorem count_ofExcept_state (x : Except OpError (Word × Rat)) (s : State) : (Res.ofExcept x s).count.state = s := by
  cases x <;> rfl

/-- Settles O19: each of the nine operations is one computation that ends in the state it began in. -/
theorem pureOperationsStayOffTheBus : Obligations.PureOperationsStayOffTheBus := by
  intro i s t hi hs ht
  have pure : ∀ {r : Res Result}, r.state = s → complete r = .next t → t = { s with resp := t.resp } := by
    intro r hr hc
    obtain rfl := complete_next hc
    exact answered_of_state hs hr
  cases i with
  | getCfg => exact pure rfl ht
  | getAlert => exact pure rfl ht
  | raw2v raw => exact pure rfl ht
  | raw2i raw => exact pure rfl ht
  | raw2p raw => exact pure rfl ht
  | v2raw => exact pure (count_ofExcept_state _ s) ht
  | i2raw => exact pure (count_ofExcept_state _ s) ht
  | p2raw => exact pure (count_ofExcept_state _ s) ht
  | autoTmo => exact pure rfl ht
  | _ => cases hi

/-- Settles O31: the encoding is closed, and the arm answers from the shadow without a transaction. -/
theorem getCfgAnswersTheShadow : Obligations.GetCfgAnswersTheShadow :=
  ⟨by decide, fun _ => rfl⟩

/-- R131: the first unrecognized source of a list of slots is the first slot that is neither empty nor a source. -/
theorem firstUnrecognized_sourceList_append {before after : List (BitVec 4)} {x : BitVec 4}
    (hbefore : ∀ y ∈ before, y = 0xF ∨ y.toNat ≤ 5) (hx : 5 < x.toNat) (hfull : x ≠ 0xF) :
    firstUnrecognized (sourceList (before ++ x :: after)) = some x.toNat := by
  have hskip : (sourceList before).find? (5 < ·) = none :=
    (firstUnrecognized_sourceList before).mpr fun y hy => by simpa [Instr.slotLegal] using hbefore y hy
  have hsplit : sourceList (before ++ x :: after) = sourceList before ++ x.toNat :: sourceList after := by
    have hkept : (x != 0xF) = true := bne_iff_ne.mpr hfull
    rw [sourceList, List.filter_append, List.filter_cons_of_pos (p := (· != 0xF)) hkept, List.map_append, List.map_cons]
    rfl
  rw [firstUnrecognized, hsplit, List.find?_append, hskip, List.find?_cons_of_pos (by simpa using hx)]
  rfl

/-- Settles O17: each operand's own check raises ValidationError before anything else happens. -/
theorem validationErrorsNameTheOperand : Obligations.ValidationErrorsNameTheOperand := by
  intro s hs
  have raises : ∀ {r : Res Result} {n : Nat}, r = .err (.validation n) s →
      complete r = .next { s with resp := .failed (.validation n) } := by
    rintro r n rfl
    exact congrArg Host.Outcome.next (raise_of_idle hs _)
  refine ⟨fun count (hcount : count.toNat ∉ Config.avgTable) => raises ?avg, fun sel us hsel => raises ?channel,
    fun sel us hsel (hus : us.toNat ∉ Config.ctTable) => raises ?time,
    fun a b c d e f x before after hslots hbefore hx hfull => raises ?source,
    fun sel hsel => raises ?flag, fun sel hsel => raises ?register⟩
  case avg => rw [setAvg, if_neg hcount, unit_err]
  case channel => rw [setCt, if_pos hsel, unit_err]
  case time => rw [setCt, if_neg (by omega), if_neg hus, unit_err]
  case source => rw [setAlertSources, hslots, firstUnrecognized_sourceList_append hbefore hx hfull, unit_err]
  case flag => rw [readFlag, if_pos hsel, bind_err]
  case register => rw [readRegister, (regAt_none_iff sel).mpr hsel, bind_err]

end Sys2Proof.Machine
end

section
/-! A setter as one update of one field: an RMW and then the shadow's commit (R56, R101). -/

namespace Sys2Proof.Machine

/-! ### The frame of an operation -/

/-- No access changes the shadow. -/
theorem sh_of_accessOnly {s t : State} (h : s.accessOnly t) : t.sh = s.sh := by
  obtain ⟨_, hsh, _⟩ := h
  exact hsh

/-- What a sequence of accesses leaves alone, before the operation answers. -/
theorem frame_of_accessOnly {s t : State} {rs : List DevReg} (h : s.accessOnly t)
    (hstored : ∀ r, r ∉ rs → t.dev.stored r = s.dev.stored r) : frame s t rs := by
  obtain ⟨hsession, _, hfsm, hw, hp, hopt, hopq, _, hhost, hnow⟩ := h
  exact ⟨⟨hsession, hopt, hopq, hhost⟩, hfsm, hw, hp, hnow, hstored⟩

theorem frame_refl (s : State) (rs : List DevReg) : frame s s rs :=
  ⟨⟨rfl, rfl, rfl, rfl⟩, rfl, rfl, rfl, Nat.le_refl _, fun _ _ => rfl⟩

theorem frame_trans {a b c : State} {rs : List DevReg} (h : frame a b rs) (g : frame b c rs) : frame a c rs := by
  obtain ⟨⟨h1, h2, h3, h4⟩, h5, h6, h7, hn, hd⟩ := h
  obtain ⟨⟨g1, g2, g3, g4⟩, g5, g6, g7, gn, gd⟩ := g
  exact ⟨⟨g1.trans h1, g2.trans h2, g3.trans h3, g4.trans h4⟩, g5.trans h5, g6.trans h6, g7.trans h7, hn.trans gn,
    fun r hr => (gd r hr).trans (hd r hr)⟩

theorem frame_raise {s t : State} {rs : List DevReg} (h : frame s t rs) (hs : s.fsm = .idle) (e : OpError) :
    frame s (t.raise e) rs := by
  obtain ⟨hsession, _, hrest⟩ := h
  exact ⟨hsession, hs.symm, hrest⟩

/-! ### One field -/

/-- What a setter replaces: the bits `mask` of its register by `value`, and the shadow by its commit (R101). -/
structure FieldUpdate where
  mask : Word
  value : Word
  commit : Shadow → Shadow

/-- R101: the RMW and then the commit. -/
def FieldUpdate.run (u : FieldUpdate) (r : DevReg) (s : State) : Res Unit :=
  (rmw r u.mask u.value s).bind fun _ t => .ok () (t.withShadow (u.commit t.sh))

/-- R56: the word that the RMW writes over `w`. -/
def FieldUpdate.over (u : FieldUpdate) (w : Word) : Word := mergeBits w u.mask u.value

/-- The field lies inside the writable fields of `r`. -/
abbrev FieldUpdate.fits (u : FieldUpdate) (r : DevReg) : Prop := fieldBits r u.mask u.value

section
variable {u : FieldUpdate} {r : DevReg} {s : State} {d1 d2 : Draw} {rest : List Draw}

/-- R101: a failed RMW commits nothing. -/
theorem FieldUpdate.run_of_err {e : OpError} {t : State} (h : rmw r u.mask u.value s = .err e t) :
    u.run r s = .err e t := by rw [FieldUpdate.run, h, bind_err]

/-- R56, R101: both transactions succeed. -/
theorem FieldUpdate.run_succeeds (hl : s.dev.legal) (hu : u.fits r) (he : s.env = d1 :: d2 :: rest)
    (f1 : d1.fails = false) (f2 : d2.fails = false) :
    ∃ t, u.run r s = .ok () t ∧ t.sh = u.commit s.sh ∧ t.dev.legal ∧ t.dev.stored r = u.over (s.dev.stored r) ∧
      frame s t [r] ∧ t.env = rest ∧
      t.trace = s.trace ++ [.read r.addr ((s.dev.evolve d1).get r), .write r.addr (u.over ((s.dev.evolve d1).get r))] ∧
      t.dev = s.dev.afterRmw r u.mask u.value d1 d2 := by
  obtain ⟨t, ht, ha, henv, hdev, htrace⟩ := rmw_of_ok r u.value u.mask s he f1 f2
  have hlegal := rmw_legal r u.value u.mask s hl
  rw [ht] at hlegal
  have hsh : t.sh = s.sh := sh_of_accessOnly ha
  have hframe : frame s t [r] := frame_of_accessOnly ha fun q hq => by
    rw [hdev]; exact afterRmw_stored_other d1 d2 hl hu q (List.ne_of_not_mem_cons hq)
  refine ⟨t.withShadow (u.commit t.sh), by rw [FieldUpdate.run, ht, bind_ok], congrArg u.commit hsh, hlegal, ?_,
    hframe, henv, htrace, hdev⟩
  exact (congrArg (·.stored r) hdev).trans (afterRmw_stored d1 d2 hl hu)

/-- R60, R61, R136: where the device changes no flag by itself, the RMW leaves the flags as its read half does. -/
theorem afterRmw_flags {d : Device} {m v : Word} (hl : d.legal) (h : fieldBits r m v) (q1 : flagsQuiet d1)
    (q2 : flagsQuiet d2) :
    if r = .mask then flagsAfterRead d.mask (d.afterRmw r m v d1 d2).mask d1
    else (d.afterRmw r m v d1 d2).mask = d.mask := by
  split
  case isTrue hr => subst hr; exact afterRmw_mask_flags d1 d2 q1 q2
  case isFalse hr =>
    obtain ⟨rfl, hm, hv⟩ : r = .config ∧ m &&& 0xF000 = 0 ∧ v &&& 0xF000 = 0 := h.resolve_right fun h => hr h.1
    exact afterRmw_config_mask d1 d2 hl h q1 q2

/-- Where the device changes no flag by itself, a read of a register that a field can lie in answers what it held. -/
theorem evolve_get_of_quiet {d : Device} {x : Draw} {m v : Word} (h : fieldBits r m v) (hx : flagsQuiet x) :
    (d.evolve x).get r = d.get r := by
  rcases h with ⟨rfl, _⟩ | ⟨rfl, _⟩
  · rfl
  · exact ownFlags_quiet _ hx

end

/-- An operation that runs one update is a setter of that field, with each of its outcomes (R72, R101). -/
theorem FieldUpdate.fieldSetter {i : Instr} {r : DevReg} (u : FieldUpdate) (hu : u.fits r)
    (hexec : ∀ s, exec i s = complete (u.run r s).unit) : FieldSetter i r u.mask u.value u.commit := by
  intro s d1 d2 rest hl hs he
  refine ⟨fun f1 f2 => ?succeeds, fun f1 => ?readFails, fun f1 f2 => ?writeFails⟩ <;> rw [hexec]
  case succeeds =>
    obtain ⟨t, ht, hsh, _, hstored, hframe, henv, htrace, hdev⟩ := u.run_succeeds hl hu he f1 f2
    rw [ht]
    refine ⟨t.answer .none, _, rfl, rfl, hsh, hstored, hframe, henv, htrace, fun q1 q2 =>
      ⟨evolve_get_of_quiet hu q1, ?_⟩⟩
    rw [State.answer_dev, hdev]
    exact afterRmw_flags hl hu q1 q2
  case readFails =>
    obtain ⟨t, ht, ha, henv, hstored, htrace, hflags⟩ := rmw_of_readFails r u.value u.mask s he f1
    rw [u.run_of_err ht]
    have hsh : t.sh = s.sh := sh_of_accessOnly ha
    exact ⟨_, rfl, rfl, hsh, frame_raised ha hs fun q _ => hstored q, htrace, henv, hflags⟩
  case writeFails =>
    obtain ⟨t, ht, ha, henv, hstored, hother, _, hflags⟩ := rmw_field_writeFails s hl hu he f1 f2
    rw [u.run_of_err ht]
    have hsh : t.sh = s.sh := sh_of_accessOnly ha
    exact ⟨_, rfl, rfl, hsh, frame_raised ha hs fun q hq => hother q (List.ne_of_not_mem_cons hq), henv, hstored,
      hflags⟩

end Sys2Proof.Machine
end

section
/-! The fields of Configuration, each as one update (R80, R83, R102 to R106). -/

namespace Sys2Proof.Machine

/-- R102. -/
def avgField (count : Nat) : FieldUpdate :=
  ⟨0x0E00, fieldValue (indexOf Config.avgTable count) 9, fun sh => { sh with avg := count }⟩

/-- R103. -/
def busCtField (us : Nat) : FieldUpdate :=
  ⟨0x01C0, fieldValue (indexOf Config.ctTable us) 6, fun sh => { sh with vbusct := us }⟩

/-- R103. -/
def shuntCtField (us : Nat) : FieldUpdate :=
  ⟨0x0038, fieldValue (indexOf Config.ctTable us) 3, fun sh => { sh with ishct := us }⟩

/-- R104. -/
def contField (b : Bool) : FieldUpdate := ⟨0x0004, bitValue b 2, fun sh => { sh with cont := b }⟩

/-- R105. -/
def measVField (b : Bool) : FieldUpdate := ⟨0x0002, bitValue b 1, fun sh => { sh with mv := b }⟩

/-- R106. -/
def measIField (b : Bool) : FieldUpdate := ⟨0x0001, bitValue b 0, fun sh => { sh with mc := b }⟩

theorem setAvg_eq_run {count : Nat} (h : count ∈ Config.avgTable) (s : State) :
    setAvg count s = (avgField count).run .config s := if_pos h

theorem setCt_bus_eq_run {us : Nat} (h : us ∈ Config.ctTable) (s : State) :
    setCt 0 us s = (busCtField us).run .config s := if_pos h

theorem setCt_shunt_eq_run {us : Nat} (h : us ∈ Config.ctTable) (s : State) :
    setCt 1 us s = (shuntCtField us).run .config s := if_pos h

theorem setCont_eq_run (b : Bool) (s : State) : setCont b s = (contField b).run .config s := rfl
theorem setMeasV_eq_run (b : Bool) (s : State) : setMeasV b s = (measVField b).run .config s := rfl
theorem setMeasI_eq_run (b : Bool) (s : State) : setMeasI b s = (measIField b).run .config s := rfl

/-! ### The values -/

/-- R12: in a table without repetitions the index of the member at `x` is `x`. -/
theorem indexOf_of_getElem? {table : List Nat} (hnodup : table.Nodup) {x n : Nat} (h : table[x]? = some n) :
    indexOf table n = x := by
  obtain ⟨hx, rfl⟩ := List.getElem?_eq_some_iff.mp h
  exact hnodup.idxOf_getElem x hx

/-- R88: a field value is the index times the weight of the base bit. -/
theorem fieldValue_eq_field (x base : Nat) : fieldValue x base = field x base := by
  apply BitVec.eq_of_toNat_eq
  simp [fieldValue, field, Nat.shiftLeft_eq]

/-- R88: the value of a table member's field. -/
theorem fieldValue_indexOf {table : List Nat} (hnodup : table.Nodup) {x n : Nat} (h : table[x]? = some n) (base : Nat) :
    fieldValue (indexOf table n) base = field x base := by
  rw [indexOf_of_getElem? hnodup h, fieldValue_eq_field]

/-- R83: a three-bit index at base bit 9 or below stays out of bits 15:12. -/
theorem indexField_low {table : List Nat} (hnodup : table.Nodup) (hlength : table.length = 8) {x n : Nat}
    (h : table[x]? = some n) {base : Nat} (hbase : base ≤ 9) : fieldValue (indexOf table n) base &&& 0xF000 = 0 := by
  have hall : ∀ b ≤ 9, ∀ y < 8, field y b &&& 0xF000 = 0 := by decide
  rw [fieldValue_indexOf hnodup h]
  exact hall base hbase x (hlength ▸ (List.getElem?_eq_some_iff.mp h).1)

theorem fits_config {m v : Word} {c : Shadow → Shadow} (hm : m &&& 0xF000 = 0) (hv : v &&& 0xF000 = 0) :
    FieldUpdate.fits ⟨m, v, c⟩ .config := .inl ⟨rfl, hm, hv⟩

theorem contField_fits (b : Bool) : (contField b).fits .config := fits_config (by decide) (by cases b <;> decide)
theorem measVField_fits (b : Bool) : (measVField b).fits .config := fits_config (by decide) (by cases b <;> decide)
theorem measIField_fits (b : Bool) : (measIField b).fits .config := fits_config (by decide) (by cases b <;> decide)

/-! ### The setters -/

/-- Settles O26: SET_AVG runs the update of the AVG field. -/
theorem setAvgWritesTheIndex : Obligations.SetAvgWritesTheIndex := by
  intro x count hx
  have hnodup : Config.avgTable.Nodup := by decide
  have hfits : (avgField count.toNat).fits .config :=
    fits_config (by decide) (indexField_low hnodup rfl hx (by decide))
  rw [← fieldValue_indexOf hnodup hx]
  exact (avgField count.toNat).fieldSetter hfits fun s =>
    congrArg (fun r : Res Unit => complete r.unit) (setAvg_eq_run (List.mem_of_getElem? hx) s)

/-- Settles O27: SET_CT runs the update of the VBUSCT field or of the ISHCT field. -/
theorem setCtWritesTheIndex : Obligations.SetCtWritesTheIndex := by
  intro x us hx
  have hnodup : Config.ctTable.Nodup := by decide
  have hmem : us.toNat ∈ Config.ctTable := List.mem_of_getElem? hx
  have hbus : (busCtField us.toNat).fits .config := fits_config (by decide) (indexField_low hnodup rfl hx (by decide))
  have hshunt : (shuntCtField us.toNat).fits .config := fits_config (by decide) (indexField_low hnodup rfl hx (by decide))
  rw [← fieldValue_indexOf hnodup hx, ← fieldValue_indexOf hnodup hx]
  exact ⟨(busCtField us.toNat).fieldSetter hbus fun s =>
      congrArg (fun r : Res Unit => complete r.unit) (setCt_bus_eq_run hmem s),
    (shuntCtField us.toNat).fieldSetter hshunt fun s =>
      congrArg (fun r : Res Unit => complete r.unit) (setCt_shunt_eq_run hmem s)⟩

/-- A mode bit set or cleared in its place. -/
theorem bitValue_eq_ite (b : Bool) (base : Nat) : bitValue b base = if b then field 1 base else 0 := by
  rw [bitValue, fieldValue_eq_field]
  cases b with
  | true => rfl
  | false => simp [field]

/-- Settles O28: each mode-bit setter runs the update of its bit. -/
theorem modeBitSettersWriteOneBit : Obligations.ModeBitSettersWriteOneBit := by
  intro b
  have hcont := (contField b).fieldSetter (i := .setCont b) (contField_fits b) fun _ => rfl
  have hmeasv := (measVField b).fieldSetter (i := .setMeasv b) (measVField_fits b) fun _ => rfl
  have hmeasi := (measIField b).fieldSetter (i := .setMeasi b) (measIField_fits b) fun _ => rfl
  rw [show (contField b).value = _ from bitValue_eq_ite b 2] at hcont
  rw [show (measVField b).value = _ from bitValue_eq_ite b 1] at hmeasv
  rw [show (measIField b).value = _ from bitValue_eq_ite b 0] at hmeasi
  exact ⟨hcont, hmeasv, hmeasi⟩

end Sys2Proof.Machine
end

section
/-! Updates of several Configuration fields, one after the other: SET_MODE (R107). -/

namespace Sys2Proof.Machine

/-! ### A list of updates -/

/-- The updates in order; an error ends the list (R247). -/
def runUpdates : List FieldUpdate → State → Res Unit
  | [], s => .ok () s
  | u :: l, s => (u.run .config s).bind fun _ t => runUpdates l t

/-- The Configuration word after the updates. -/
def wordAfter (l : List FieldUpdate) (w : Word) : Word := l.foldl (fun w u => u.over w) w

/-- The shadow after their commits. -/
def shadowAfter (l : List FieldUpdate) (sh : Shadow) : Shadow := l.foldl (fun sh u => u.commit sh) sh

/-- The bus trace of the updates from the Configuration word `w` (R56). -/
def updatesTrace : List FieldUpdate → Word → List Txn
  | [], _ => []
  | u :: l, w => .read 0x00 w :: .write 0x00 (u.over w) :: updatesTrace l (u.over w)

/-- From `s` to `t` the updates `l` were completed and the draws `used` taken, one for each transaction; a transaction
after those of `l` may have failed. -/
structure Updated (l : List FieldUpdate) (used : List Draw) (s t : State) : Prop where
  shadow : t.sh = shadowAfter l s.sh
  frame : frame s t [.config]
  script : s.env = used ++ t.env
  length : t.trace.length = s.trace.length + used.length
  flags : (∀ x ∈ used, flagsQuiet x) → t.dev.mask = s.dev.mask

theorem Updated.refl (s : State) : Updated [] [] s s := ⟨rfl, frame_refl s _, rfl, rfl, fun _ => rfl⟩

theorem Updated.trans {l k : List FieldUpdate} {x y : List Draw} {s t r : State} (h : Updated l x s t)
    (g : Updated k y t r) : Updated (l ++ k) (x ++ y) s r where
  shadow := by rw [g.shadow, h.shadow, shadowAfter, shadowAfter, shadowAfter, List.foldl_append]
  frame := frame_trans h.frame g.frame
  script := by rw [h.script, g.script, List.append_assoc]
  length := by rw [g.length, h.length, List.length_append, Nat.add_assoc]
  flags hq := (g.flags fun d hd => hq d (List.mem_append_right x hd)).trans
    (h.flags fun d hd => hq d (List.mem_append_left y hd))

theorem Updated.env_eq {l : List FieldUpdate} {ok rest : List Draw} {s t : State} (h : Updated l ok s t)
    (he : s.env = ok ++ rest) : t.env = rest := List.append_cancel_left (h.script.symm.trans he)

section
variable {u : FieldUpdate} {s : State} {d d1 d2 : Draw} {rest : List Draw}

theorem run_config_succeeds (hl : s.dev.legal) (hu : u.fits .config) (he : s.env = d1 :: d2 :: rest)
    (f1 : d1.fails = false) (f2 : d2.fails = false) :
    ∃ t, u.run .config s = .ok () t ∧ Updated [u] [d1, d2] s t ∧ t.dev.legal ∧ t.env = rest ∧
      t.dev.config = u.over s.dev.config ∧
      t.trace = s.trace ++ [.read 0x00 s.dev.config, .write 0x00 (u.over s.dev.config)] := by
  obtain ⟨t, ht, hsh, hlegal, hconfig, hframe, henv, htrace, hdev⟩ := u.run_succeeds hl hu he f1 f2
  refine ⟨t, ht, ⟨hsh, hframe, by rw [he, henv]; rfl, by simp [htrace], fun hq => ?_⟩, hlegal, henv, hconfig, htrace⟩
  rw [hdev]
  exact afterRmw_config_mask d1 d2 hl hu (hq d1 (by simp)) (hq d2 (by simp))

/-- R72: the read of an update fails. -/
theorem run_config_readFails (he : s.env = d :: rest) (hd : d.fails = true) :
    ∃ t, u.run .config s = .err (.transport 0x00 false) t ∧ Updated [] [d] s t ∧ t.dev.config = s.dev.config := by
  obtain ⟨t, ht, ha, henv, hstored, htrace, hflags⟩ := rmw_of_readFails .config u.value u.mask s he hd
  have hsh : t.sh = s.sh := sh_of_accessOnly ha
  exact ⟨t, u.run_of_err ht, ⟨hsh, frame_of_accessOnly ha fun q _ => hstored q, by rw [he, henv]; rfl, by simp [htrace],
    fun hq => hflags (hq d (by simp))⟩, hstored .config⟩

/-- R72: the write of an update fails; Configuration holds the old word or the new one. -/
theorem run_config_writeFails (hl : s.dev.legal) (hu : u.fits .config) (he : s.env = d1 :: d :: rest)
    (f1 : d1.fails = false) (hd : d.fails = true) :
    ∃ t, u.run .config s = .err (.transport 0x00 true) t ∧ Updated [] [d1, d] s t ∧
      (t.dev.config = s.dev.config ∨ t.dev.config = u.over s.dev.config) := by
  obtain ⟨t, ht, ha, henv, hconfig, hother, ⟨old, htrace⟩, hflags⟩ := rmw_field_writeFails s hl hu he f1 hd
  have hsh : t.sh = s.sh := sh_of_accessOnly ha
  have hframe : frame s t [.config] := frame_of_accessOnly ha fun q hq => hother q (List.ne_of_not_mem_cons hq)
  exact ⟨t, u.run_of_err ht, ⟨hsh, hframe, by rw [he, henv]; rfl, by simp [htrace],
    fun hq => hflags (hq d1 (by simp)) (hq d (by simp))⟩, hconfig⟩

end

/-- R56, R107: with all their transactions successful the updates run to their end. -/
theorem runUpdates_succeeds {l : List FieldUpdate} {s : State} {ok rest : List Draw} (hl : s.dev.legal)
    (hfits : ∀ u ∈ l, u.fits .config) (he : s.env = ok ++ rest) (hlength : ok.length = 2 * l.length)
    (hok : ∀ x ∈ ok, x.fails = false) :
    ∃ t, runUpdates l s = .ok () t ∧ Updated l ok s t ∧ t.dev.config = wordAfter l s.dev.config ∧
      t.trace = s.trace ++ updatesTrace l s.dev.config := by
  induction l generalizing s ok with
  | nil =>
    obtain rfl := List.eq_nil_of_length_eq_zero hlength
    exact ⟨s, rfl, Updated.refl s, rfl, (List.append_nil _).symm⟩
  | cons u l ih =>
    match ok, hlength with
    | d1 :: d2 :: ok, hlength =>
      obtain ⟨t, ht, hfirst, hlegal, henv, hconfig, htrace⟩ := run_config_succeeds hl (hfits u (by simp)) he
        (hok d1 (by simp)) (hok d2 (by simp))
      obtain ⟨r, hr, hothers, hword, hmore⟩ := ih hlegal (fun x hx => hfits x (by simp [hx])) henv
        (by simp only [List.length_cons] at hlength; omega) (fun x hx => hok x (by simp [hx]))
      refine ⟨r, by rw [runUpdates, ht, bind_ok, hr], hfirst.trans hothers, ?_, ?_⟩
      · rw [hword, hconfig]; rfl
      · rw [hmore, htrace, hconfig, List.append_assoc]; rfl

/-- R107, R72, R248: the first failed transaction, after those of the draws `ok`, ends the updates: the ones completed
stand, and a failed write leaves Configuration as before that update or as after it. -/
theorem runUpdates_fails {l : List FieldUpdate} {s : State} {ok rest : List Draw} {d : Draw} (hl : s.dev.legal)
    (hfits : ∀ u ∈ l, u.fits .config) (he : s.env = ok ++ d :: rest) (hlength : ok.length < 2 * l.length)
    (hok : ∀ x ∈ ok, x.fails = false) (hd : d.fails = true) :
    ∃ t, runUpdates l s = .err (.transport 0x00 (decide (ok.length % 2 = 1))) t ∧
      Updated (l.take (ok.length / 2)) (ok ++ [d]) s t ∧
      (t.dev.config = wordAfter (l.take (ok.length / 2)) s.dev.config ∨
        ok.length % 2 = 1 ∧ t.dev.config = wordAfter (l.take (ok.length / 2 + 1)) s.dev.config) := by
  induction l generalizing s ok with
  | nil => exact absurd hlength (Nat.not_lt_zero _)
  | cons u l ih =>
    have hu : u.fits .config := hfits u (by simp)
    match ok with
    | [] =>
      obtain ⟨t, ht, hupdated, hconfig⟩ := run_config_readFails (u := u) he hd
      exact ⟨t, by rw [runUpdates, ht, bind_err]; rfl, hupdated, .inl hconfig⟩
    | [d1] =>
      obtain ⟨t, ht, hupdated, hconfig⟩ := run_config_writeFails hl hu he (hok d1 (by simp)) hd
      have hhalf : [d1].length / 2 = 0 := by simp
      rw [hhalf]
      exact ⟨t, by rw [runUpdates, ht, bind_err]; rfl, hupdated, hconfig.imp_right fun h => ⟨rfl, h⟩⟩
    | d1 :: d2 :: ok =>
      obtain ⟨t, ht, hfirst, hlegal, henv, hconfig, _⟩ := run_config_succeeds hl hu he
        (hok d1 (by simp)) (hok d2 (by simp))
      obtain ⟨r, hr, hothers, hword⟩ := ih hlegal (fun x hx => hfits x (by simp [hx])) henv
        (by simp only [List.length_cons] at hlength; omega) (fun x hx => hok x (by simp [hx]))
      have hmod : (d1 :: d2 :: ok).length % 2 = ok.length % 2 := Nat.add_mod_right ok.length 2
      have hdiv : (d1 :: d2 :: ok).length / 2 = ok.length / 2 + 1 := Nat.add_div_right ok.length Nat.two_pos
      rw [hmod, hdiv]
      rw [hconfig] at hword
      exact ⟨r, by rw [runUpdates, ht, bind_ok, hr], hfirst.trans hothers, hword⟩

/-! ### SET_MODE -/

/-- R107: SET_MODE's three updates. -/
def modeFields (c v m : Bool) : List FieldUpdate := [contField c, measVField v, measIField m]

theorem modeFields_fit (c v m : Bool) : ∀ u ∈ modeFields c v m, u.fits .config := by
  simp only [modeFields, List.forall_mem_cons]
  exact ⟨contField_fits c, measVField_fits v, measIField_fits m, by simp⟩

/-- A part followed by nothing. -/
theorem bind_ok_unit (r : Res Unit) : (r.bind fun _ t => .ok () t) = r := by cases r <;> rfl

theorem setMode_eq_runUpdates (c v m : Bool) (s : State) : setMode c v m s = runUpdates (modeFields c v m) s := by
  simp only [setMode, modeFields, runUpdates, bind_ok_unit, setCont_eq_run, setMeasV_eq_run, setMeasI_eq_run]

/-- Two fields merged one after the other are one field. -/
theorem mergeBits_mergeBits (w m n v x : Word) :
    mergeBits (mergeBits w m v) n x = mergeBits w (m ||| n) (v &&& ~~~n ||| x) := by
  unfold mergeBits
  ext i hi
  simp only [BitVec.getElem_and, BitVec.getElem_or, BitVec.getElem_not]
  cases m[i] <;> cases n[i] <;> simp [Bool.or_assoc]

/-- R107: the Configuration word after each of SET_MODE's three updates. -/
theorem wordAfter_modeFields (w : Word) (c v m : Bool) {k : Nat} (hk : k ≤ 3) :
    wordAfter ((modeFields c v m).take k) w = modeWord w c v m k := by
  have hone : (contField c).over w = modeWord w c v m 1 := by
    show mergeBits w 0x0004 (bitValue c 2) = w &&& 0xFFFB ||| field c.toNat 2
    rw [bitValue, fieldValue_eq_field]
    rfl
  have htwo : (measVField v).over ((contField c).over w) = modeWord w c v m 2 := by
    show mergeBits (mergeBits w 0x0004 (bitValue c 2)) 0x0002 (bitValue v 1) = _
    have hvalue : bitValue c 2 &&& ~~~0x0002 ||| bitValue v 1 = field (2 * c.toNat + v.toNat) 1 := by
      cases c <;> cases v <;> decide
    rw [mergeBits_mergeBits, hvalue]
    rfl
  have hthree : (measIField m).over ((measVField v).over ((contField c).over w)) = modeWord w c v m 3 := by
    show mergeBits (mergeBits (mergeBits w 0x0004 (bitValue c 2)) 0x0002 (bitValue v 1)) 0x0001 (bitValue m 0) = _
    have hvalue : bitValue c 2 &&& ~~~(0x0002 ||| 0x0001) ||| (bitValue v 1 &&& ~~~0x0001 ||| bitValue m 0) =
        field (4 * c.toNat + 2 * v.toNat + m.toNat) 0 := by
      cases c <;> cases v <;> cases m <;> decide
    rw [mergeBits_mergeBits, mergeBits_mergeBits, hvalue]
    rfl
  match k, hk with
  | 0, _ => rfl
  | 1, _ => exact hone
  | 2, _ => exact htwo
  | 3, _ => exact hthree

/-- R107: what each step writes, the next one reads. -/
theorem updatesTrace_modeFields (w : Word) (c v m : Bool) :
    updatesTrace (modeFields c v m) w =
      [.read 0x00 w, .write 0x00 (modeWord w c v m 1), .read 0x00 (modeWord w c v m 1),
        .write 0x00 (modeWord w c v m 2), .read 0x00 (modeWord w c v m 2), .write 0x00 (modeWord w c v m 3)] := by
  rw [← wordAfter_modeFields w c v m (k := 1) (by decide), ← wordAfter_modeFields w c v m (k := 2) (by decide),
    ← wordAfter_modeFields w c v m (k := 3) (by decide)]
  rfl

/-- R107: the shadow once `n` of SET_MODE's six transactions have succeeded. -/
theorem shadowAfter_modeFields (sh : Shadow) (c v m : Bool) {n : Nat} (hn : n < 6) :
    shadowAfter ((modeFields c v m).take (n / 2)) sh =
      { sh with cont := if 2 ≤ n then c else sh.cont, mv := if 4 ≤ n then v else sh.mv } := by
  interval_cases n <;> rfl

/-- Settles O29: SET_MODE is its three updates, and each step's word is the next step's reading. -/
theorem setModeIsThreeWrites : Obligations.SetModeIsThreeWrites := by
  intro c v m s d1 d2 d3 d4 d5 d6 rest hl hs he f1 f2 f3 f4 f5 f6
  have hok : ∀ x ∈ [d1, d2, d3, d4, d5, d6], x.fails = false := by simp [f1, f2, f3, f4, f5, f6]
  obtain ⟨t, ht, hupdated, hconfig, htrace⟩ :=
    runUpdates_succeeds (ok := [d1, d2, d3, d4, d5, d6]) hl (modeFields_fit c v m) he rfl hok
  have hword : t.dev.config = modeWord s.dev.config c v m 3 :=
    hconfig.trans (wordAfter_modeFields s.dev.config c v m (k := 3) (by decide))
  have henv : t.env = rest := hupdated.env_eq (ok := [d1, d2, d3, d4, d5, d6]) he
  rw [updatesTrace_modeFields] at htrace
  refine ⟨t.answer .none, ?_, rfl, hupdated.shadow, hupdated.frame, henv, hword, htrace,
    hupdated.flags⟩
  exact congrArg (fun r : Res Unit => complete r.unit) ((setMode_eq_runUpdates c v m s).trans ht)

/-- Settles O30: SET_MODE is its three updates, which end at their first failed transaction. -/
theorem setModeStopsAtTheFirstFailure : Obligations.SetModeStopsAtTheFirstFailure := by
  intro c v m s ok d rest hl hs he hlength hok hd
  obtain ⟨t, ht, hupdated, hconfig⟩ := runUpdates_fails hl (modeFields_fit c v m) he hlength hok hd
  rw [wordAfter_modeFields _ c v m (by omega), wordAfter_modeFields _ c v m (by omega)] at hconfig
  have henv : t.env = rest := hupdated.env_eq (he.trans (List.append_cons ok d rest))
  refine ⟨t.raise (.transport 0x00 (decide (ok.length % 2 = 1))), ?_, rfl, ?_, hconfig, frame_raise hupdated.frame hs _,
    henv, ?_, fun hq hqd => hupdated.flags ?_⟩
  · exact congrArg (fun r : Res Unit => complete r.unit) ((setMode_eq_runUpdates c v m s).trans ht)
  · rw [State.raise_sh, hupdated.shadow, shadowAfter_modeFields _ _ _ _ hlength]
  · simpa [Nat.add_assoc] using hupdated.length
  · exact List.forall_mem_append.mpr ⟨hq, List.forall_mem_singleton.mpr hqd⟩

end Sys2Proof.Machine
end

section
/-! Collapsing a list of alert sources and naming the sources of a mask (R85, R130, R132). -/

namespace Sys2Proof.Machine

/-! ### Collapsing -/

/-- The maximum of a list that is not empty, as `collapse` computes it. -/
theorem foldl_max_spec {f : List Nat} (hf : f ≠ []) : f.foldl max 0 ∈ f ∧ ∀ j ∈ f, j ≤ f.foldl max 0 := by
  refine List.max?_eq_some_iff.mp ?_
  cases f with
  | nil => exact absurd rfl hf
  | cons x f => rw [List.max?_cons', List.foldl_cons, Nat.zero_max]

/-- R130: bit 0 of the collapsed mask, as a mask of its own. -/
def conversionReadyMask (l : List Nat) : BitVec 6 := if 0 ∈ l then 1 else 0

/-- The functional sources of a list, of which `collapse` keeps the highest (R130). -/
def functionalSources (l : List Nat) : List Nat := l.filter (1 ≤ ·)

theorem mem_functionalSources {l : List Nat} {j : Nat} : j ∈ functionalSources l ↔ j ∈ l ∧ 1 ≤ j := by
  simp [functionalSources]

theorem collapse_of_nil {l : List Nat} (h : functionalSources l = []) : collapse l = conversionReadyMask l := by
  unfold collapse
  rw [show l.filter (1 ≤ ·) = [] from h]
  rfl

theorem collapse_of_ne_nil {l : List Nat} (h : functionalSources l ≠ []) :
    collapse l = ((1 <<< (functionalSources l).foldl max 0 : Nat) : BitVec 6) ||| conversionReadyMask l := by
  obtain ⟨x, f, hf⟩ := List.exists_cons_of_ne_nil h
  rw [hf]
  unfold collapse
  rw [show l.filter (1 ≤ ·) = x :: f from hf]
  rfl

/-- R130: without a functional source only Conversion Ready is left; otherwise the highest source stands beside it. -/
theorem collapse_cases (l : List Nat) :
    ((∀ j ∈ l, j = 0) ∧ collapse l = conversionReadyMask l) ∨
      ∃ h ∈ l, 1 ≤ h ∧ (∀ j ∈ l, j ≤ h) ∧ collapse l = ((1 <<< h : Nat) : BitVec 6) ||| conversionReadyMask l := by
  by_cases hf : functionalSources l = []
  case pos =>
    refine .inl ⟨fun j hj => Nat.eq_zero_of_not_pos fun hpos => ?_, collapse_of_nil hf⟩
    exact List.eq_nil_iff_forall_not_mem.mp hf j (mem_functionalSources.mpr ⟨hj, hpos⟩)
  case neg =>
    obtain ⟨hmem, hmax⟩ := foldl_max_spec hf
    obtain ⟨hl, h1⟩ := mem_functionalSources.mp hmem
    refine .inr ⟨_, hl, h1, fun j hj => ?_, collapse_of_ne_nil hf⟩
    rcases Nat.eq_zero_or_pos j with rfl | hpos
    · exact Nat.zero_le _
    · exact hmax j (mem_functionalSources.mpr ⟨hj, hpos⟩)

theorem conversionReadyMask_bit (l : List Nat) (k : Nat) :
    (conversionReadyMask l).getLsbD k = true ↔ k = 0 ∧ 0 ∈ l := by
  unfold conversionReadyMask
  split <;> simp [*]

/-- A single source bit. -/
theorem one_shiftLeft_bit (h : Nat) {k : Nat} (hk : k ≤ 5) :
    ((1 <<< h : Nat) : BitVec 6).getLsbD k = true ↔ k = h := by
  rw [BitVec.natCast_eq_ofNat, BitVec.getLsbD_ofNat, Nat.one_shiftLeft, Nat.testBit_two_pow]
  simp only [Bool.and_eq_true, decide_eq_true_eq]
  omega

/-- Settles O33, by whether a functional source is in the list. -/
theorem collapseKeepsTheHighestSource : Obligations.CollapseKeepsTheHighestSource := by
  intro l _
  rcases collapse_cases l with ⟨hzero, hl⟩ | ⟨h, hmem, h1, hmax, hl⟩
  case inl =>
    rw [hl]
    refine ⟨(conversionReadyMask_bit l 0).trans (and_iff_right rfl), fun k hk _ => ?_⟩
    rw [conversionReadyMask_bit]
    exact ⟨fun hbit => absurd hbit.1 (by omega), fun hbit => absurd (hzero k hbit.1) (by omega)⟩
  case inr =>
    have bit : ∀ k ≤ 5, (collapse l).getLsbD k = true ↔ k = h ∨ k = 0 ∧ 0 ∈ l := fun k hk => by
      rw [hl, BitVec.getLsbD_or, Bool.or_eq_true, one_shiftLeft_bit h hk, conversionReadyMask_bit]
    refine ⟨(bit 0 (by omega)).trans ⟨?_, fun h0 => .inr ⟨rfl, h0⟩⟩, fun k hk hk5 => (bit k hk5).trans ⟨?_, ?_⟩⟩
    · rintro (rfl | ⟨_, h0⟩)
      · exact hmem
      · exact h0
    · rintro (rfl | ⟨h0, _⟩)
      · exact ⟨hmem, hmax⟩
      · omega
    · rintro ⟨hkl, hkmax⟩
      exact .inl (Nat.le_antisymm (hmax k hkl) (hkmax h hmem))

/-! ### Names -/

/-- The name of the first code, if it is kept, stands before the others. -/
theorem names_filter_cons (p : Nat → Bool) (c : Nat) (l : List Nat) :
    ((c :: l).filter p).map sourceName =
      (if p c then [sourceName c] else []) ++ (l.filter p).map sourceName := by
  cases h : p c <;> simp [h]

/-- R85, R132: the names of a mask's sources, bit by bit. -/
theorem names_sourcesOf (m : BitVec 6) :
    (sourcesOf m).map sourceName =
      (if m.getLsbD 0 then ["Conversion Ready"] else []) ++
      (if m.getLsbD 1 then ["Power Over Limit"] else []) ++
      (if m.getLsbD 2 then ["Bus Voltage Under Voltage"] else []) ++
      (if m.getLsbD 3 then ["Bus Voltage Over Voltage"] else []) ++
      (if m.getLsbD 4 then ["Under Current Limit"] else []) ++
      (if m.getLsbD 5 then ["Over Current Limit"] else []) := by
  simp only [sourcesOf, names_filter_cons, List.filter_nil, List.map_nil, List.append_nil, List.append_assoc, sourceName]

/-- Settles O35: GET_ALERT answers the names of the shadow's sources and touches nothing but the response. -/
theorem getAlertAnswersTheNames : Obligations.GetAlertAnswersTheNames := by
  intro s
  rw [← names_sourcesOf]
  rfl

end Sys2Proof.Machine
end

section
/-! The fields of Mask/Enable, each as one update (R86, R131, R133, R134). -/

namespace Sys2Proof.Machine

/-- R131. -/
def alertField (l : List Nat) : FieldUpdate :=
  ⟨0xFC00, sourceValue (collapse l), fun sh => { sh with amask := collapse l }⟩

/-- R133. -/
def apolField (b : Bool) : FieldUpdate := ⟨0x0002, bitValue b 1, fun sh => { sh with apol := b }⟩

/-- R134. -/
def latchField (b : Bool) : FieldUpdate := ⟨0x0001, bitValue b 0, fun sh => { sh with latch := b }⟩

theorem setAlertSources_eq_run {l : List Nat} (h : firstUnrecognized l = none) (s : State) :
    setAlertSources l s = (alertField l).run .mask s := by
  rw [setAlertSources, h]
  rfl

theorem setApol_eq_run (b : Bool) (s : State) : setApol b s = (apolField b).run .mask s := rfl
theorem writeLatch_eq_run (b : Bool) (s : State) : writeLatch b s = (latchField b).run .mask s := rfl

/-! ### The values -/

/-- R131: the six source bits are a field of base bit 10. -/
theorem sourceValue_eq_field (m : BitVec 6) : sourceValue m = field m.toNat 10 := by
  apply BitVec.eq_of_toNat_eq
  simp [sourceValue, field, Nat.shiftLeft_eq]

theorem fits_mask {m v : Word} {c : Shadow → Shadow} (hm : m &&& 0x03FC = 0) (hv : v &&& 0x03FC = 0) :
    FieldUpdate.fits ⟨m, v, c⟩ .mask := .inr ⟨rfl, hm, hv⟩

theorem sourceValue_low (m : BitVec 6) : sourceValue m &&& 0x03FC = 0 := by
  revert m
  decide

theorem alertField_fits (l : List Nat) : (alertField l).fits .mask := fits_mask (by decide) (sourceValue_low _)
theorem apolField_fits (b : Bool) : (apolField b).fits .mask := fits_mask (by decide) (by cases b <;> decide)
theorem latchField_fits (b : Bool) : (latchField b).fits .mask := fits_mask (by decide) (by cases b <;> decide)

/-! ### The setters -/

/-- R90: a slot that is empty or a recognized source is legal. -/
theorem slotLegal_iff (x : BitVec 4) : Instr.slotLegal x = true ↔ x = 0xF ∨ x.toNat ≤ 5 := by
  simp [Instr.slotLegal]

/-- R90: the empty slots are those that hold 0xF. -/
theorem sourceList_eq (l : List (BitVec 4)) : sourceList l = (l.filter (· ≠ 0xF)).map BitVec.toNat :=
  congrArg (List.map BitVec.toNat) (List.filter_congr fun x _ => by grind)

/-- Settles O34: SET_ALERT_SRC with recognized sources runs the update of the alert field. -/
theorem setAlertSrcWritesTheCollapsedMask : Obligations.SetAlertSrcWritesTheCollapsedMask := by
  intro a b c d e f hslots
  have hrecognized : firstUnrecognized (sourceList [a, b, c, d, e, f]) = none :=
    (firstUnrecognized_sourceList _).mpr fun x hx => (slotLegal_iff x).mpr (hslots x hx)
  rw [← sourceList_eq, ← sourceValue_eq_field]
  exact (alertField _).fieldSetter (alertField_fits _) fun s =>
    congrArg (fun r : Res Unit => complete r.unit) (setAlertSources_eq_run hrecognized s)

/-- Settles O36: SET_APOL runs the update of the APOL bit. -/
theorem setApolWritesBitOne : Obligations.SetApolWritesBitOne := by
  intro b
  have hsetter := (apolField b).fieldSetter (i := .setApol b) (apolField_fits b) fun s =>
    congrArg (fun r : Res Unit => complete r.unit) (setApol_eq_run b s)
  rwa [show (apolField b).value = if b then field 1 1 else 0 from bitValue_eq_ite b 1] at hsetter

end Sys2Proof.Machine
end

section
/-! SET_LATCH: one or two updates of LEN (R134). -/

namespace Sys2Proof.Machine

/-! ### An update of Mask/Enable and the flags -/

/-- R60, R61, R136: where the device changes no flag by itself, an update of Mask/Enable leaves the flags as its read
does. -/
theorem run_mask_succeeds {u : FieldUpdate} {s : State} {d1 d2 : Draw} {rest : List Draw} (hl : s.dev.legal)
    (hu : u.fits .mask) (he : s.env = d1 :: d2 :: rest) (f1 : d1.fails = false) (f2 : d2.fails = false) :
    ∃ t, u.run .mask s = .ok () t ∧ t.sh = u.commit s.sh ∧ t.dev.legal ∧
      t.dev.stored .mask = u.over (s.dev.stored .mask) ∧ frame s t [.mask] ∧ t.env = rest ∧
      t.trace = s.trace ++ [.read 0x06 (ownFlags s.dev.mask d1), .write 0x06 (u.over (ownFlags s.dev.mask d1))] ∧
      (flagsQuiet d1 → flagsQuiet d2 → flagsAfterRead s.dev.mask t.dev.mask d1) := by
  obtain ⟨t, ht, hsh, hlegal, hstored, hframe, henv, htrace, hdev⟩ := u.run_succeeds hl hu he f1 f2
  refine ⟨t, ht, hsh, hlegal, hstored, hframe, henv, htrace, fun q1 q2 => ?_⟩
  rw [hdev]
  exact afterRmw_mask_flags d1 d2 q1 q2

/-- An update of Mask/Enable from `s` that ended in `t` with a failed transaction: `ok` are the draws before the one that
failed it (R72). -/
structure MaskUpdateFailed (u : FieldUpdate) (ok : List Draw) (d : Draw) (s t : State) : Prop where
  shadow : t.sh = s.sh
  frame : frame s t [.mask]
  length : t.trace.length = s.trace.length + ok.length + 1
  stored : t.dev.stored .mask = s.dev.stored .mask ∨
    ok.length = 1 ∧ t.dev.stored .mask = u.over (s.dev.stored .mask)
  flags : (∀ x ∈ ok, flagsQuiet x) → flagsQuiet d → ovfOf t.dev.mask = ovfOf s.dev.mask ∧
    (cvrfOf t.dev.mask = false ∨ ok = [] ∧ t.dev.mask = s.dev.mask)

/-- R72, R101: an update of Mask/Enable ends at its first failed transaction, its read or its write. -/
theorem run_mask_fails {u : FieldUpdate} {s : State} {ok rest : List Draw} {d : Draw} (hl : s.dev.legal)
    (hu : u.fits .mask) (he : s.env = ok ++ d :: rest) (hlength : ok.length < 2) (hok : ∀ x ∈ ok, x.fails = false)
    (hd : d.fails = true) :
    ∃ t, u.run .mask s = .err (.transport 0x06 (decide (ok.length % 2 = 1))) t ∧ t.env = rest ∧
      MaskUpdateFailed u ok d s t := by
  match ok with
  | [] =>
    obtain ⟨t, ht, ha, henv, hstored, htrace, hflags⟩ := rmw_of_readFails .mask u.value u.mask s he hd
    have hsh : t.sh = s.sh := sh_of_accessOnly ha
    have hframe : frame s t [.mask] := frame_of_accessOnly ha fun q _ => hstored q
    refine ⟨t, u.run_of_err ht, henv, hsh, hframe, by simp [htrace], .inl (hstored .mask), fun _ hq => ?_⟩
    rcases hflags hq with hold | ⟨⟨hcvrf, hovf, _⟩, _⟩
    · exact ⟨congrArg ovfOf hold, .inr ⟨rfl, hold⟩⟩
    · exact ⟨hovf, .inl hcvrf⟩
  | [d1] =>
    obtain ⟨t, ht, ha, henv, hstored, hother, ⟨_, htrace⟩, hflags⟩ :=
      rmw_field_writeFails s hl hu he (hok d1 (by simp)) hd
    have hsh : t.sh = s.sh := sh_of_accessOnly ha
    have hframe : frame s t [.mask] := frame_of_accessOnly ha fun q hq => hother q (List.ne_of_not_mem_cons hq)
    refine ⟨t, u.run_of_err ht, henv, hsh, hframe, by simp [htrace], hstored.imp_right fun h => ⟨rfl, h⟩,
      fun hq hqd => ?_⟩
    obtain ⟨hcvrf, hovf, _⟩ := hflags (hq d1 (by simp)) hqd
    exact ⟨hovf, .inl hcvrf⟩
  | _ :: _ :: _ => exact absurd hlength (by simp)

/-- A list with room for two draws begins with two. -/
theorem exists_two_cons {l : List Draw} (h : 2 ≤ l.length) : ∃ d1 d2 k, l = d1 :: d2 :: k := by
  match l, h with
  | d1 :: d2 :: k, _ => exact ⟨d1, d2, k, rfl⟩

/-! ### LEN -/

theorem latchField_over_false (w : Word) : (latchField false).over w = w &&& 0xFFFE := BitVec.or_zero

theorem latchField_over_true (w : Word) : (latchField true).over w = w ||| 0x0001 := by
  show w &&& ~~~0x0001 ||| 0x0001 = w ||| 0x0001
  ext i hi
  simp only [BitVec.getElem_and, BitVec.getElem_or, BitVec.getElem_not]
  cases (0x0001 : Word)[i] <;> simp

/-- R134: LEN passes through 0 and leaves no trace of it. -/
theorem latchField_over_over (w : Word) : (latchField true).over ((latchField false).over w) = w ||| 0x0001 := by
  show mergeBits (mergeBits w 0x0001 0) 0x0001 0x0001 = _
  rw [mergeBits_mergeBits]
  exact latchField_over_true w

theorem lenOf_storedMask (w : Word) : lenOf (storedMask w) = lenOf w := by simp [lenOf, storedMask]

/-- R36: LEN is a stored bit, and 0 once it has been cleared. -/
theorem lenOf_of_stored {v w : Word} (h : storedMask w = v &&& 0xFFFE) : lenOf w = false := by
  rw [← lenOf_storedMask, h]
  simp [lenOf]

theorem setLatch_false_eq_run (s : State) : setLatch false s = (latchField false).run .mask s := by
  rw [← writeLatch_eq_run]
  exact bind_ok_unit _

theorem setLatch_true_of_ok {s t : State} (h : (latchField false).run .mask s = .ok () t) :
    setLatch true s = (latchField true).run .mask t := by
  rw [setLatch, writeLatch_eq_run, h, bind_ok, if_pos rfl, writeLatch_eq_run]

theorem setLatch_true_of_err {s t : State} {e : OpError} (h : (latchField false).run .mask s = .err e t) :
    setLatch true s = .err e t := by
  rw [setLatch, writeLatch_eq_run, h, bind_err]

theorem exec_setLatch_of_ok {b : Bool} {s t : State} (h : setLatch b s = .ok () t) :
    exec (.setLatch b) s = .next (t.answer .none) := congrArg (fun r : Res Unit => complete r.unit) h

theorem exec_setLatch_of_err {b : Bool} {s t : State} {e : OpError} (h : setLatch b s = .err e t) :
    exec (.setLatch b) s = .next (t.raise e) := congrArg (fun r : Res Unit => complete r.unit) h

/-! ### SET_LATCH -/

theorem setLatch_false_fieldSetter :
    FieldSetter (.setLatch false) .mask 0x0001 0 fun sh => { sh with latch := false } :=
  (latchField false).fieldSetter (latchField_fits false) fun s =>
    congrArg (fun r : Res Unit => complete r.unit) (setLatch_false_eq_run s)

/-- Settles O37: SET_LATCH 1 is the update of LEN by 0 and then by 1; a failure ends the one it falls in. -/
theorem setLatchPassesThroughCleared : Obligations.SetLatchPassesThroughCleared := by
  refine ⟨setLatch_false_fieldSetter, ?succeeds, ?fails⟩
  case succeeds =>
    intro s d1 d2 d3 d4 rest hl hs he f1 f2 f3 f4
    obtain ⟨t, ht, htsh, htlegal, htstored, htframe, htenv, httrace, htflags⟩ :=
      run_mask_succeeds hl (latchField_fits false) he f1 f2
    obtain ⟨r, hr, hrsh, _, hrstored, hrframe, hrenv, hrtrace, hrflags⟩ :=
      run_mask_succeeds htlegal (latchField_fits true) htenv f3 f4
    rw [htstored, latchField_over_over] at hrstored
    rw [latchField_over_false] at httrace htstored
    rw [latchField_over_true, httrace, List.append_assoc] at hrtrace
    have hcleared : lenOf t.dev.mask = false := lenOf_of_stored htstored
    have hread : lenOf (ownFlags t.dev.mask d3) = false :=
      lenOf_of_stored ((ownFlags_storedMask _ _).trans htstored)
    refine ⟨r.answer .none, _, _, exec_setLatch_of_ok ((setLatch_true_of_ok ht).trans hr), rfl, ?_, hrstored,
      frame_trans htframe hrframe, hrenv, hrtrace, hread, fun q1 q2 q3 q4 => ?_⟩
    · rw [State.answer_sh, hrsh, htsh]
      rfl
    · obtain ⟨_, hovf, _⟩ := htflags q1 q2
      obtain ⟨hcvrf', hovf', haff'⟩ := hrflags q3 q4
      rw [hcleared] at haff'
      exact ⟨ownFlags_quiet _ q1, hcvrf', hovf'.trans hovf, haff'⟩
  case fails =>
    intro s ok d rest hl hs he hlength hok hd
    rcases Nat.lt_or_ge ok.length 2 with hfirst | hsecond
    · obtain ⟨t, ht, henv, hfailed⟩ := run_mask_fails hl (latchField_fits false) he hfirst hok hd
      have hstored := hfailed.stored
      rw [latchField_over_false] at hstored
      rw [if_neg hfirst.not_ge, if_neg hfirst.not_ge]
      exact ⟨t.raise _, exec_setLatch_of_err (setLatch_true_of_err ht), rfl, hfailed.shadow,
        frame_raise hfailed.frame hs _, henv, hfailed.length, hstored.imp_right .inl, hfailed.flags⟩
    · obtain ⟨d1, d2, ok, rfl⟩ := exists_two_cons hsecond
      obtain ⟨t, ht, htsh, htlegal, htstored, htframe, htenv, httrace, htflags⟩ :=
        run_mask_succeeds hl (latchField_fits false) he (hok d1 (by simp)) (hok d2 (by simp))
      obtain ⟨r, hr, hrenv, hfailed⟩ := run_mask_fails htlegal (latchField_fits true) htenv
        (by simp only [List.length_cons] at hlength; omega) (fun x hx => hok x (by simp [hx])) hd
      have hstored := hfailed.stored
      have hmod : (d1 :: d2 :: ok).length % 2 = ok.length % 2 := Nat.add_mod_right ok.length 2
      rw [htstored, latchField_over_over, latchField_over_false] at hstored
      rw [hmod, if_pos hsecond, if_pos hsecond]
      refine ⟨r.raise _, exec_setLatch_of_err ((setLatch_true_of_ok ht).trans hr), rfl, ?_,
        frame_raise (frame_trans htframe hfailed.frame) hs _, hrenv, ?_, ?_, fun hq hqd => ?_⟩
      · exact hfailed.shadow.trans htsh
      · exact hfailed.length.trans (by simp [httrace]; omega)
      · exact hstored.imp_right fun h => .inr ⟨by simp [h.1], h.2⟩
      · obtain ⟨hcvrf, hovf, _⟩ := htflags (hq d1 (by simp)) (hq d2 (by simp))
        obtain ⟨hovf', hcvrf'⟩ := hfailed.flags (fun x hx => hq x (by simp [hx])) hqd
        refine ⟨hovf'.trans hovf, .inl ?_⟩
        rcases hcvrf' with h | ⟨_, hmask⟩
        · exact h
        · exact (congrArg cvrfOf hmask).trans hcvrf

end Sys2Proof.Machine
end

section
/-! READ_FLAG: one read of Mask/Enable and one of its flags (R135). -/

namespace Sys2Proof.Machine

/-- R135, R36: the flag that a selector names, in a word read from Mask/Enable. -/
def flagOf (sel : Nat) (w : Word) : Bool := if sel = 0 then affOf w else if sel = 1 then cvrfOf w else ovfOf w

theorem flagOf_toNat (sel : BitVec 8) (w : Word) :
    flagOf sel.toNat w = if sel = 0 then w.getLsbD 4 else if sel = 1 then w.getLsbD 3 else w.getLsbD 2 := by
  simp only [flagOf, ← BitVec.toNat_inj]
  rfl

theorem readFlag_eq_read {sel : Nat} (h : sel ≤ 2) (s : State) :
    readFlag sel s = (regRead .mask s).bind fun w t => .ok (flagOf sel w) t := if_neg (Nat.not_lt.mpr h)

theorem exec_readFlag_of_ok {sel : BitVec 8} {s t : State} {w : Word} (hsel : sel.toNat ≤ 2)
    (h : regRead .mask s = .ok w t) : exec (.readFlag sel) s = .next (t.answer (.bit (flagOf sel.toNat w))) := by
  show complete ((readFlag sel.toNat s).bind _) = _
  rw [readFlag_eq_read hsel, h]
  rfl

theorem exec_readFlag_of_err {sel : BitVec 8} {s t : State} {e : OpError} (hsel : sel.toNat ≤ 2)
    (h : regRead .mask s = .err e t) : exec (.readFlag sel) s = .next (t.raise e) := by
  show complete ((readFlag sel.toNat s).bind _) = _
  rw [readFlag_eq_read hsel, h]
  rfl

/-- Settles O38: READ_FLAG is one read of Mask/Enable, and answers a bit of the word it returned. -/
theorem readFlagAnswersOneBit : Obligations.ReadFlagAnswersOneBit := by
  intro s d rest sel hs he hsel
  refine ⟨fun hd => ?succeeds, fun hd => ?fails⟩
  case succeeds =>
    obtain ⟨t, ht, ha, henv, hdev, htrace⟩ := regRead_succeeds s .mask he hd
    have hsh : t.sh = s.sh := sh_of_accessOnly ha
    have hstored : ∀ r, t.dev.stored r = s.dev.stored r := fun r => by simp [hdev]
    have hflags : flagsAfterRead (s.dev.evolve d).mask t.dev.mask d := by
      rw [hdev]
      exact clearOnRead_flags _ _
    exact ⟨_, _, exec_readFlag_of_ok hsel ht, htrace, congrArg (Response.done ∘ Result.bit) (flagOf_toNat sel _), hsh,
      henv, frame_answered ha fun r _ => hstored r, hflags, evolve_mask_of_quiet s.dev⟩
  case fails =>
    obtain ⟨t, ht, ha, henv, hstored, htrace, hflags⟩ := regRead_fails s .mask he hd
    have hsh : t.sh = s.sh := sh_of_accessOnly ha
    exact ⟨_, exec_readFlag_of_err hsel ht, rfl, hsh, frame_raised ha hs fun r _ => hstored r, htrace, henv, hflags⟩

end Sys2Proof.Machine
end

section
/-! The conversions as the linear formulas of R161 to R168, the units of the alert limit (R173), and the forward
conversions (R161 to R163). -/

namespace Sys2Proof.Machine

/-! ### The formulas -/

/-- R160: the model's divider factor and the statements' one are the same quotient. -/
theorem dividerFactor_eq_divider (x : Session) : dividerFactor x = divider x := rfl

/-- R176(d). -/
theorem divider_pos (x : Session) : 0 < divider x := dividerFactor_pos x

theorem rawToVolts_eq_linear (x : Session) (n : Word) :
    rawToVolts x n = (n.toNat : Rat) * (1 / 800) / divider x + x.vDiode := rfl

theorem rawToAmps_eq_linear (n : Word) : rawToAmps n = (n.toInt : Rat) * (1 / 800) := by
  rw [rawToAmps, signed16_eq_toInt, lsbI]

theorem rawToWatts_eq_linear (x : Session) (n : Word) :
    rawToWatts x n = (n.toNat : Rat) * (1 / 100) / divider x := rfl

theorem voltsToCount_eq_linear (x : Session) (v : Rat) :
    voltsToCount x v = (v - x.vDiode) * divider x * 800 := by
  rw [voltsToCount, dividerFactor_eq_divider, lsbV, one_div, div_inv_eq_mul]

theorem ampsToCount_eq_linear (i : Rat) : ampsToCount i = i * 800 := by
  rw [ampsToCount, lsbI, one_div, div_inv_eq_mul]

theorem wattsToCount_eq_linear (x : Session) (p : Rat) : wattsToCount x p = p * divider x * 100 := by
  rw [wattsToCount, dividerFactor_eq_divider, lsbP, one_div, div_inv_eq_mul]

/-- Settles O39: each arm answers its formula; the current's count is read in two's complement (R162). -/
theorem forwardConversionsAreLinear : Obligations.ForwardConversionsAreLinear := by
  refine fun s raw => ⟨rfl, ?_, rfl⟩
  rw [← rawToAmps_eq_linear]
  rfl

/-! ### The unit of the alert limit -/

/-- R24: of the functional sources, a voltage source excludes the current ones, and the power source all others. -/
theorem oneFunctional_excludes {m : BitVec 6} (h : oneFunctional m = true) :
    (m.getLsbD 3 = true ∨ m.getLsbD 2 = true → m.getLsbD 5 = false ∧ m.getLsbD 4 = false) ∧
    (m.getLsbD 1 = true →
      m.getLsbD 5 = false ∧ m.getLsbD 4 = false ∧ m.getLsbD 3 = false ∧ m.getLsbD 2 = false) := by
  revert m
  decide

theorem unitOf_eq_current_iff (m : BitVec 6) :
    unitOf m = some .current ↔ m.getLsbD 5 = true ∨ m.getLsbD 4 = true := by
  simp [unitOf, ite_eq_iff, or_iff_not_imp_left]

theorem unitOf_eq_voltage_iff (m : BitVec 6) :
    unitOf m = some .voltage ↔
      (m.getLsbD 5 = false ∧ m.getLsbD 4 = false) ∧ (m.getLsbD 3 = true ∨ m.getLsbD 2 = true) := by
  simp [unitOf, ite_eq_iff, or_iff_not_imp_left]

theorem unitOf_eq_power_iff (m : BitVec 6) :
    unitOf m = some .power ↔
      (m.getLsbD 5 = false ∧ m.getLsbD 4 = false) ∧ (m.getLsbD 3 = false ∧ m.getLsbD 2 = false) ∧
        m.getLsbD 1 = true := by
  simp [unitOf, ite_eq_iff]

/-- R173: no unit means no functional source, whatever CNVR is. -/
theorem unitOf_eq_none_iff (m : BitVec 6) : unitOf m = none ↔ m = 0b000000 ∨ m = 0b000001 := by
  revert m
  decide

/-- Settles O44: under R24 the earlier cases of `unit_of` cannot hide a later one. -/
theorem unitFollowsTheFunctionalSource : Obligations.UnitFollowsTheFunctionalSource := by
  intro m hm
  obtain ⟨hvoltage, hpower⟩ := oneFunctional_excludes hm
  refine ⟨unitOf_eq_current_iff m, ?voltage, ?power, unitOf_eq_none_iff m⟩
  case voltage =>
    rw [unitOf_eq_voltage_iff]
    exact and_iff_right_of_imp hvoltage
  case power =>
    rw [unitOf_eq_power_iff]
    refine ⟨fun ⟨_, _, h⟩ => h, fun h => ?_⟩
    obtain ⟨h5, h4, h3, h2⟩ := hpower h
    exact ⟨⟨h5, h4⟩, ⟨h3, h2⟩, h⟩

end Sys2Proof.Machine
end

section
/-! The inverse conversions (R164 to R168) and the quantization law (R169). -/

namespace Sys2Proof.Machine

/-! ### Count or RangeError -/

/-- R164 steps 2 to 5: the operation that quantizes the scaled operand `q` and reads the count back by `forward`. -/
def answerCount (q : Rat) (forward : Word → Rat) (s : State) : Host.Outcome State Fault Refusal :=
  complete (Res.ofExcept ((quantize s.session q).map fun n => (n, forward n)) s).count

theorem exec_v2raw_eq (s : State) : exec .v2raw s =
    answerCount ((s.opq - s.session.vDiode) * divider s.session * 800) (rawToVolts s.session) s := by
  rw [← voltsToCount_eq_linear]
  rfl

theorem exec_i2raw_eq (s : State) : exec .i2raw s = answerCount (s.opq * 800) rawToAmps s := by
  rw [← ampsToCount_eq_linear]
  rfl

theorem exec_p2raw_eq (s : State) : exec .p2raw s =
    answerCount (s.opq * divider s.session * 100) (rawToWatts s.session) s := by
  rw [← wattsToCount_eq_linear]
  rfl

section
variable {s t : State} {q : Rat} {forward : Word → Rat} {n : Word}

theorem answerCount_of_countOf (h : countOf s.session q n) :
    answerCount q forward s = .next { s with resp := .done (.count n (forward n)) } := by
  rw [answerCount, quantize_of_count h]
  rfl

theorem quantize_of_outOfRange {x : Session} {k : Int} (h : outOfRange x q k) : quantize x q = .error (.range k) := by
  obtain ⟨rfl, hk⟩ := h
  exact quantize_of_range hk

theorem answerCount_of_outOfRange {k : Int} (hs : s.fsm = .idle) (h : outOfRange s.session q k) :
    answerCount q forward s = .next { s with resp := .failed (.range k) } := by
  rw [answerCount, quantize_of_outOfRange h]
  exact congrArg Host.Outcome.next (raise_of_idle hs _)

/-- An answered count is the nearest one, and comes with its own value. -/
theorem countOf_of_answerCount {y : Rat} (h : answerCount q forward s = .next t) (hr : t.resp = .done (.count n y)) :
    countOf s.session q n ∧ y = forward n := by
  unfold answerCount at h
  cases hq : quantize s.session q with
  | error e =>
    rw [hq] at h
    cases h
    cases hr
  | ok m =>
    rw [hq] at h
    cases h
    cases hr
    exact ⟨quantize_ok hq, rfl⟩

end

/-- An operation that answers a count of its scaled operand is an inverse conversion. -/
theorem inverseConversion_of_exec_eq {i : Instr} {scaled : State → Rat} {value : Session → Word → Rat}
    (h : ∀ s, exec i s = answerCount (scaled s) (value s.session) s) : InverseConversion i scaled value := by
  refine fun s hs => ⟨fun n hn => ?_, fun k hk => ?_⟩ <;> rw [h]
  · exact answerCount_of_countOf hn
  · exact answerCount_of_outOfRange hs hk

/-- Settles O41: the three operations differ in the scale and the forward conversion only. -/
theorem inverseConversionsAnswerCountOrRangeError : Obligations.InverseConversionsAnswerCountOrRangeError := by
  refine ⟨inverseConversion_of_exec_eq exec_v2raw_eq, inverseConversion_of_exec_eq fun s => ?_,
    inverseConversion_of_exec_eq exec_p2raw_eq⟩
  rw [exec_i2raw_eq]
  exact congrArg (answerCount _ · s) (funext rawToAmps_eq_linear)

/-! ### The grid -/

/-- R12: an integer is its own nearest integer. -/
theorem roundInt_intCast (tie : RoundTie) (k : Int) : roundInt tie (k : Rat) = k := by
  have hfloor : (k : Rat).floor = k := Rat.floor_intCast k
  obtain ⟨_, hr⟩ | ⟨hgt, _⟩ | ⟨heq, _⟩ := roundInt_cases tie (k : Rat)
  · rw [hr, hfloor]
  · rw [hfloor] at hgt
    norm_num at hgt
  · rw [hfloor] at heq
    norm_num at heq

/-- R169: the nearest grid point is within half a step. -/
theorem abs_onGrid_sub_le (x : Session) (a v : Rat) {step : Rat} (hstep : 0 < step) :
    |onGrid x a step v - v| ≤ step / 2 := by
  obtain ⟨hnear, _⟩ := roundIntIsNearest x.roundTie ((v - a) / step)
  have hscaled : onGrid x a step v - v = (roundInt x.roundTie ((v - a) / step) - (v - a) / step) * step := by
    rw [onGrid, sub_mul, div_mul_cancel₀ _ hstep.ne']
    ring
  rw [hscaled, abs_mul, abs_of_pos hstep, abs_sub_comm]
  calc _ ≤ 1 / 2 * step := mul_le_mul_of_nonneg_right hnear hstep.le
    _ = step / 2 := by ring

section
variable {s t : State} {q : Rat} {forward : Word → Rat} {n : Word}

/-- R169, for any inverse conversion that scales by a grid and whose answered count reads back on it. -/
theorem answerCount_onGrid {a step y : Rat} (hstep : 0 < step) (hq : q = (s.opq - a) / step)
    (h : answerCount q forward s = .next t) (hr : t.resp = .done (.count n y))
    (hforward : forward n = a + (n.toNat : Rat) * step) :
    y = onGrid s.session a step s.opq ∧ |y - s.opq| ≤ step / 2 := by
  obtain ⟨hcount, rfl⟩ := countOf_of_answerCount h hr
  have hgrid : forward n = onGrid s.session a step s.opq := by
    rw [hforward, onGrid, ← hq, hcount, Int.cast_natCast]
  rw [hgrid]
  exact ⟨rfl, abs_onGrid_sub_le _ _ _ hstep⟩

/-- R169: an operand whose scaled value is a count, and which that count reads back as, is answered by both. -/
theorem answerCount_of_eq_count (hq : q = (n.toNat : Rat)) (hforward : forward n = s.opq) :
    answerCount q forward s = .next { s with resp := .done (.count n s.opq) } := by
  have hcount : countOf s.session q n := by
    rw [hq]
    exact roundInt_intCast s.session.roundTie (n.toNat : Int)
  rw [answerCount_of_countOf hcount, hforward]

/-- R162, R169: a count below 32768 is read back in amperes without a sign. -/
theorem rawToAmps_of_lt (h : n.toNat < 32768) : rawToAmps n = (n.toNat : Rat) * (1 / 800) := by
  rw [rawToAmps, signed16_of_lt h, lsbI, Int.cast_natCast]

end

/-- Settles O42: each conversion scales by the grid of its statement, and its counts read back on that grid. -/
theorem quantizationLaw : Obligations.QuantizationLaw := by
  refine ⟨fun s t n y h hr => ?volts, fun s t n y h hr => ?watts, fun s t n y h hr hn => ?amps,
    fun s n => ⟨fun hv => ?voltsBack, fun hp => ?wattsBack, fun hn hi => ?ampsBack⟩⟩
  case volts =>
    have hd := divider_pos s.session
    rw [exec_v2raw_eq] at h
    refine answerCount_onGrid (by positivity) ?_ h hr ?_
    · field_simp
    · rw [rawToVolts_eq_linear]
      ring
  case watts =>
    have hd := divider_pos s.session
    rw [exec_p2raw_eq] at h
    refine answerCount_onGrid (by positivity) ?_ h hr ?_
    · field_simp
      ring
    · rw [rawToWatts_eq_linear]
      ring
  case amps =>
    rw [exec_i2raw_eq] at h
    refine answerCount_onGrid (by norm_num) ?_ h hr ?_
    · ring
    · rw [rawToAmps_of_lt hn]
      ring
  case voltsBack =>
    have hd := (divider_pos s.session).ne'
    rw [exec_v2raw_eq]
    refine answerCount_of_eq_count ?_ hv.symm
    rw [hv]
    field_simp
    ring
  case wattsBack =>
    have hd := (divider_pos s.session).ne'
    rw [exec_p2raw_eq]
    refine answerCount_of_eq_count ?_ hp.symm
    rw [hp]
    field_simp
  case ampsBack =>
    rw [exec_i2raw_eq]
    refine answerCount_of_eq_count ?_ ((rawToAmps_of_lt hn).trans hi.symm)
    rw [hi]
    ring

end Sys2Proof.Machine
end

section
/-! The measurement reads (R170 to R172) and the alert limit (R174, R175). -/

namespace Sys2Proof.Machine

/-! ### One read and its conversion -/

/-- One read of `r`, converted by `forward`. -/
def readQuantity (r : DevReg) (forward : Session → Word → Rat) (s : State) : Res Rat :=
  (regRead r s).bind fun raw t => .ok (forward t.session raw) t

theorem session_of_accessOnly {s t : State} (h : s.accessOnly t) : t.session = s.session := by
  obtain ⟨hsession, _⟩ := h
  exact hsession

section
variable {s : State} {d : Draw} {rest : List Draw} {r : DevReg} (forward : Session → Word → Rat)

theorem readQuantity_succeeds (hr : r ≠ .mask) (he : s.env = d :: rest) (hd : d.fails = false) :
    ∃ t, complete (readQuantity r forward s).quantity = .next t ∧
      t.resp = .done (.quantity (forward s.session ((s.dev.evolve d).get r))) ∧ t.sh = s.sh ∧
      t.trace = s.trace ++ [.read r.addr ((s.dev.evolve d).get r)] ∧ t.env = rest ∧ frame s t [] ∧
      (flagsQuiet d → t.dev.mask = s.dev.mask) := by
  obtain ⟨t, ht, ha, henv, hdev, htrace⟩ := regRead_succeeds s r he hd
  have hsh : t.sh = s.sh := sh_of_accessOnly ha
  have hstored : ∀ q, t.dev.stored q = s.dev.stored q := fun q => by simp [hdev]
  have hmask : t.dev.mask = (s.dev.evolve d).mask := by rw [hdev, afterRead_mask, if_neg hr]
  rw [readQuantity, ht, ← session_of_accessOnly ha]
  exact ⟨_, rfl, rfl, hsh, htrace, henv, frame_answered ha fun q _ => hstored q, fun hq =>
    hmask.trans (evolve_mask_of_quiet _ hq)⟩

theorem readQuantity_fails (hs : s.fsm = .idle) (hr : r ≠ .mask) (he : s.env = d :: rest) (hd : d.fails = true) :
    ∃ t, complete (readQuantity r forward s).quantity = .next t ∧ t.resp = .failed (.transport r.addr false) ∧
      t.sh = s.sh ∧ t.trace = s.trace ++ [.readFailed r.addr] ∧ t.env = rest ∧ frame s t [] ∧
      (flagsQuiet d → t.dev.mask = s.dev.mask) := by
  obtain ⟨t, ht, ha, henv, hstored, htrace, hmask⟩ := regRead_fails s r he hd
  have hsh : t.sh = s.sh := sh_of_accessOnly ha
  rw [readQuantity, ht]
  rw [if_neg hr] at hmask
  exact ⟨_, rfl, rfl, hsh, htrace, henv, frame_raised ha hs fun q _ => hstored q, hmask⟩

end

/-- R64: an operation that converts one read of a measurement register, which holds what the draw gives. -/
theorem measurementRead_of_exec_eq {i : Instr} {r : DevReg} {raw : Draw → Word} {forward : Session → Word → Rat}
    (hr : r ≠ .mask) (hraw : ∀ (e : Device) d, (e.evolve d).get r = raw d)
    (h : ∀ s, exec i s = complete (readQuantity r forward s).quantity) : MeasurementRead i r raw forward := by
  refine fun s d rest hs he => ⟨fun hd => ?_, fun hd => ?_⟩ <;> rw [h]
  · rw [← hraw s.dev]
    exact readQuantity_succeeds forward hr he hd
  · exact readQuantity_fails forward hs hr he hd

/-- Settles O43: each of the three operations is one converted read of its own measurement register. -/
theorem measurementReadsConvertTheRegister : Obligations.MeasurementReadsConvertTheRegister := by
  refine ⟨measurementRead_of_exec_eq nofun (fun _ _ => rfl) fun _ => rfl,
    measurementRead_of_exec_eq nofun (fun _ _ => rfl) fun s => ?_,
    measurementRead_of_exec_eq nofun (fun _ _ => rfl) fun _ => rfl⟩
  simp only [← rawToAmps_eq_linear]
  rfl

/-! ### The alert limit -/

/-- R174: the scaled operand of a unit. -/
def limitCount (x : Session) (u : LimitUnit) (v : Rat) : Rat :=
  match u with
  | .current => ampsToCount v
  | .voltage => voltsToCount x v
  | .power => wattsToCount x v

theorem limitToRaw_eq_quantize (x : Session) (u : LimitUnit) (v : Rat) :
    limitToRaw x u v = (quantize x (limitCount x u v)).map fun n => (n, rawToLimit x u n) := by
  cases u <;> rfl

section
variable {s : State} {u : LimitUnit}

/-- R174: before any functional source SET_ALERT_LIMIT does not get as far as the bus. -/
theorem exec_setAlertLimit_of_none (hs : s.fsm = .idle) (h : unitOf s.sh.amask = none) :
    exec .setAlertLimit s = .next { s with resp := .failed .precondition } := by
  rw [← raise_of_idle hs]
  show complete (setLimit s.opq s).unit = _
  rw [setLimit, h]
  rfl

/-- R175: nor does GET_ALERT_LIMIT. -/
theorem exec_getAlertLimit_of_none (hs : s.fsm = .idle) (h : unitOf s.sh.amask = none) :
    exec .getAlertLimit s = .next { s with resp := .failed .precondition } := by
  rw [← raise_of_idle hs]
  show complete (getLimit s).quantity = _
  rw [getLimit, h]
  rfl

theorem exec_setAlertLimit_of_range (hs : s.fsm = .idle) (hu : unitOf s.sh.amask = some u) {n : Int}
    (h : outOfRange s.session (limitCount s.session u s.opq) n) :
    exec .setAlertLimit s = .next { s with resp := .failed (.range n) } := by
  show complete (setLimit s.opq s).unit = _
  rw [setLimit, hu]
  dsimp only
  rw [limitToRaw_eq_quantize, quantize_of_outOfRange h]
  exact congrArg Host.Outcome.next (raise_of_idle hs _)

theorem exec_setAlertLimit_of_count (hu : unitOf s.sh.amask = some u) {n : Word}
    (h : countOf s.session (limitCount s.session u s.opq) n) :
    exec .setAlertLimit s = complete (regWrite .limit n s).unit := by
  show complete (setLimit s.opq s).unit = _
  rw [setLimit, hu]
  dsimp only
  rw [limitToRaw_eq_quantize, quantize_of_count h]
  rfl

theorem exec_getAlertLimit_of_unit (hu : unitOf s.sh.amask = some u) :
    exec .getAlertLimit s = complete (readQuantity .limit (rawToLimit · u) s).quantity := by
  show complete (getLimit s).quantity = _
  rw [getLimit, hu]
  rfl

end

/-- R59: a write of the limit, taken or not, leaves every other register and the flags. -/
theorem afterWrite_limit_others (d : Device) (v : Word) :
    (∀ r, r ∉ [DevReg.limit] → (d.afterWrite .limit v).stored r = d.stored r) ∧
      (d.afterWrite .limit v).mask = d.mask :=
  ⟨fun r hr => afterWrite_stored_other d .limit v nofun r (List.ne_of_not_mem_cons hr), rfl⟩

/-- Settles O45: the unit decides the scale, the scaled operand decides between RangeError and one write. -/
theorem setAlertLimitStoresTheCount : Obligations.SetAlertLimitStoresTheCount := by
  refine fun s hs => ⟨exec_setAlertLimit_of_none hs, fun u q hu hq => ?_⟩
  have hscaled : q = limitCount s.session u s.opq := by
    rw [hq]
    cases u with
    | current => exact (ampsToCount_eq_linear _).symm
    | voltage => exact (voltsToCount_eq_linear _ _).symm
    | power => exact (wattsToCount_eq_linear _ _).symm
  rw [hscaled]
  refine ⟨fun n hn => exec_setAlertLimit_of_range hs hu hn, fun n d rest hn he => ?_⟩
  rw [exec_setAlertLimit_of_count hu hn]
  obtain ⟨hothers, hflags⟩ := afterWrite_limit_others (s.dev.evolve d) n
  simp only [evolve_stored] at hothers
  refine ⟨fun hd => ?succeeds, fun hd => ?fails⟩
  case succeeds =>
    obtain ⟨t, ht, ha, henv, hdev, htrace⟩ := regWrite_succeeds s .limit n he hd
    have hsh : t.sh = s.sh := sh_of_accessOnly ha
    have hlimit : t.dev.limit = n := by rw [hdev, afterWrite_limit]
    rw [← hdev] at hothers hflags
    rw [ht]
    exact ⟨_, rfl, rfl, hlimit, hsh, htrace, henv, frame_answered ha hothers, fun hq =>
      hflags.trans (evolve_mask_of_quiet _ hq)⟩
  case fails =>
    obtain ⟨t, ht, ha, henv, hdev, _⟩ := regWrite_fails s .limit n he hd
    have hsh : t.sh = s.sh := sh_of_accessOnly ha
    have hkept : (t.dev.limit = s.dev.limit ∨ t.dev.limit = n) ∧
        (∀ r, r ∉ [DevReg.limit] → t.dev.stored r = s.dev.stored r) ∧ t.dev.mask = (s.dev.evolve d).mask := by
      rcases hdev with hold | hnew
      · rw [hold]
        exact ⟨.inl rfl, fun r _ => evolve_stored _ _ _, rfl⟩
      · rw [hnew]
        exact ⟨.inr rfl, hothers, hflags⟩
    obtain ⟨hlimit, hstored, hmask⟩ := hkept
    rw [ht]
    exact ⟨_, rfl, rfl, hsh, hlimit, frame_raised ha hs hstored, henv, fun hq =>
      hmask.trans (evolve_mask_of_quiet _ hq)⟩

/-- Settles O46: one read of the limit register, which the device does not move by itself, converted by the unit. -/
theorem getAlertLimitConvertsTheLiveRegister : Obligations.GetAlertLimitConvertsTheLiveRegister := by
  refine fun s hs => ⟨exec_getAlertLimit_of_none hs, fun u d rest hu he => ?_⟩
  rw [exec_getAlertLimit_of_unit hu]
  refine ⟨fun hd => ?succeeds, fun hd => ?fails⟩
  case succeeds =>
    obtain ⟨t, ht, hresp, hsh, htrace, henv, hframe, hquiet⟩ :=
      readQuantity_succeeds (r := .limit) (rawToLimit · u) nofun he hd
    refine ⟨t, ht, hsh, henv, hframe, htrace, hquiet, hresp.trans ?_⟩
    cases u with
    | current => exact congrArg (Response.done ∘ Result.quantity) (rawToAmps_eq_linear _)
    | voltage => rfl
    | power => rfl
  case fails =>
    obtain ⟨t, ht, hresp, hsh, _, henv, hframe, hquiet⟩ :=
      readQuantity_fails (r := .limit) (rawToLimit · u) hs nofun he hd
    exact ⟨t, ht, hresp, hsh, hframe, henv, hquiet⟩

end Sys2Proof.Machine
end

section
/-! AUTO_TMO and the automatic timeout (R190 to R192), and the peak test (R201). -/

namespace Sys2Proof.Machine

theorem toNat_eq_ite (b : Bool) : b.toNat = if b then 1 else 0 := by cases b <;> rfl

/-- R191: the automatic timeout is twice the conversion latency, and never under the floor. -/
theorem autoTimeout_eq_latency (sh : Shadow) : autoTimeout sh = max 1000 (2 * convLatency sh) := by
  rw [autoTimeout, convLatency, Nat.mul_assoc]

/-- R10: the largest averaging count. -/
theorem le_of_mem_avgTable {n : Nat} (h : n ∈ Config.avgTable) : n ≤ 1024 := by
  have hall : ∀ n ∈ Config.avgTable, n ≤ 1024 := by decide
  exact hall n h

/-- R10: the longest conversion time. -/
theorem le_of_mem_ctTable {n : Nat} (h : n ∈ Config.ctTable) : n ≤ 8244 := by
  have hall : ∀ n ∈ Config.ctTable, n ≤ 8244 := by decide
  exact hall n h

/-- R191: no legal shadow converts for longer than the largest settings, with both channels on. -/
theorem convLatency_le {sh : Shadow} (h : sh.legal) : convLatency sh ≤ 16883712 := by
  obtain ⟨havg, hv, hi, _⟩ := h
  have hbus : sh.vbusct * sh.mv.toNat ≤ 8244 * 1 := Nat.mul_le_mul (le_of_mem_ctTable hv) (Bool.toNat_le _)
  have hshunt : sh.ishct * sh.mc.toNat ≤ 8244 * 1 := Nat.mul_le_mul (le_of_mem_ctTable hi) (Bool.toNat_le _)
  calc convLatency sh ≤ 1024 * (8244 * 1 + 8244 * 1) :=
        Nat.mul_le_mul (le_of_mem_avgTable havg) (Nat.add_le_add hbus hshunt)
    _ = 16883712 := by norm_num

/-- Settles O48: the floor bounds the timeout below, the largest settings bound it above. -/
theorem automaticTimeoutBounds : Obligations.AutomaticTimeoutBounds := by
  intro sh h
  have hmax := convLatency_le h
  refine ⟨autoTimeout_ge sh, ?_, autoTimeout_eq_latency sh⟩
  rw [autoTimeout_eq_latency]
  omega

/-- Settles O47: the encoding is closed, and the arm answers the formula from the shadow. -/
theorem autoTmoAnswersTheFormula : Obligations.AutoTmoAnswersTheFormula := by
  refine ⟨by decide, fun s => ?_⟩
  rw [← toNat_eq_ite, ← toNat_eq_ite]
  rfl

/-- R201: the test of a full window; a shorter or a longer list is no peak. -/
theorem isPeak_iff (win : List Rat) (thr : Rat) :
    isPeak win thr = true ↔ ∃ a b c, win = [a, b, c] ∧ c - b < 0 ∧ b - a > 0 ∧ a > thr ∧ b > thr ∧ c > thr := by
  match win with
  | [] => simp [isPeak]
  | [_] => simp [isPeak]
  | [_, _] => simp [isPeak]
  | [a, b, c] => simp [isPeak]
  | _ :: _ :: _ :: _ :: _ => simp [isPeak]

/-- Settles O54, by the length of the window. -/
theorem peakTestIsStrict : Obligations.PeakTestIsStrict := isPeak_iff

/-- Settles O51: both operations look for the pin before they do anything else. -/
theorem edgeWaitsNeedTheAlertPin : Obligations.EdgeWaitsNeedTheAlertPin := by
  intro s a hpin hs
  have hno : ¬ s.session.alertPin = true := by simp [hpin]
  rw [← raise_of_idle hs]
  constructor
  case left =>
    show complete ((waitEdgeFor _ s).bind _) = _
    rw [waitEdgeFor, if_neg hno]
    rfl
  case right =>
    show complete (waitPeakFor _ s.opq s) = _
    rw [waitPeakFor, if_neg hno]
    rfl

end Sys2Proof.Machine
end

section
/-! WAIT_EDGE: the small steps of an armed wait against the trace form (R193 to R198). -/

namespace Sys2Proof.Machine

/-! ### The trace form -/

/-- R197: whether a wait of `T` microseconds succeeds, and after how many microseconds it ends, when the first falling edge
is `fall`; with the edge at the instant of the deadline, `tie` chooses (R196, R252). -/
def edgeOutcome (fall : Option Nat) (T : Nat) (tie : Bool) : Bool × Nat :=
  match fall with
  | some k => if k < T then (true, k) else if k = T then (tie, T) else (false, T)
  | none => (false, T)

theorem edgeOutcome_of_lt {k T : Nat} (h : k < T) (tie : Bool) : edgeOutcome (some k) T tie = (true, k) := if_pos h

theorem edgeOutcome_at (T : Nat) (tie : Bool) : edgeOutcome (some T) T tie = (tie, T) := by simp [edgeOutcome]

/-- R197: a wait in which no edge comes before the deadline, nor at it if that would count, fails at the deadline. -/
theorem edgeOutcome_of_late {fall : Option Nat} {T : Nat} {tie : Bool} (h : ∀ k, fall = some k → T < k ∨ T = k ∧ tie = false) :
    edgeOutcome fall T tie = (false, T) := by
  cases fall with
  | none => rfl
  | some k =>
    obtain hk | ⟨rfl, rfl⟩ := h k rfl
    · rw [edgeOutcome, if_neg (by omega), if_neg (by omega)]
    · exact edgeOutcome_at T false

theorem edgeOutcome_le (fall : Option Nat) (T : Nat) (tie : Bool) : (edgeOutcome fall T tie).2 ≤ T := by
  cases fall with
  | none => exact Nat.le_refl T
  | some k =>
    simp only [edgeOutcome]
    split
    · exact Nat.le_of_lt (by assumption)
    · split <;> exact Nat.le_refl T

/-! ### The small steps -/

/-- The wait that goes from `s` to `t` ended as `o` says: Signaled or TimedOut, that long after arming. -/
abbrev State.waitEnds (s t : State) (o : Bool × Nat) : Prop := decide (t.fsm = .signaled) = o.1 ∧ t.now = s.w.tArm + o.2

theorem signal_waitEnds {s : State} {T : Nat} (hnow : s.now = s.w.tArm + T) : s.waitEnds s.signal (true, T) := ⟨rfl, hnow⟩

theorem expire_waitEnds {s : State} {T : Nat} (hnow : s.now = s.w.tArm + T) : s.waitEnds s.expire (false, T) := ⟨rfl, hnow⟩

theorem runOut_waitEnds {s : State} (h : s.now ≤ s.deadline) : s.waitEnds s.runOut (false, s.w.tmo) :=
  ⟨rfl, Nat.max_eq_right h⟩

section
variable {s : State} {tie : Bool} {n : Nat} (hnow : s.now = s.w.tArm + n)
include hnow

theorem expired_eq : s.expired = decide (s.w.tmo ≤ n) := by
  rw [State.expired, hnow, Nat.add_sub_cancel_left]

/-- R196: an edge that came before the deadline, or at it where that counts, is signaled at once. -/
theorem urgent_of_edge (hedge : s.w.edge = true) (hn : n < s.w.tmo ∨ tie = true) : s.urgent tie = some s.signal := by
  rw [State.urgent, expired_eq hnow, hedge]
  exact if_pos (by grind)

/-- R196: at the deadline, unless an edge may still come at that instant, the wait expires. -/
theorem urgent_of_expired (hedge : s.w.edge = false) (hn : s.w.tmo ≤ n) (htie : tie = false) :
    s.urgent tie = some s.expire := by
  rw [State.urgent, expired_eq hnow, hedge, htie]
  simp [hn]

theorem urgent_none (hedge : s.w.edge = false) (hn : n < s.w.tmo ∨ tie = true) : s.urgent tie = none := by
  rw [State.urgent, expired_eq hnow, hedge]
  simp only [Bool.false_and, Bool.false_eq_true, if_false]
  exact if_neg (by grind)

end

/-- At the deadline without `tie` the wait has expired; until then, or at the deadline with `tie`, an edge still counts. -/
theorem expires_or_waits (tie : Bool) {n T : Nat} (h : n ≤ T) : (n = T ∧ tie = false) ∨ n < T ∨ n = T ∧ tie = true := by
  grind

/-- An urgent step fires whatever event comes next (R196). -/
theorem armedRun_of_urgent {tie : Bool} {s t : State} (h : s.urgent tie = some t) (l : List EnvEvent) :
    armedRun tie l s = t := by
  match l with
  | [] => rw [armedRun, h]
  | .line b :: r => rw [armedRun, h]
  | .time d :: r => rw [armedRun, h]

/-- With no urgent step at an event of the line, the wait takes note of the level and goes on. -/
theorem armedRun_line {tie : Bool} {s : State} (h : s.urgent tie = none) (b : Bool) (r : List EnvEvent) :
    armedRun tie (.line b :: r) s = armedRun tie r (s.onLine b) := by rw [armedRun, h]

/-- Time goes on, but not past the deadline. -/
theorem armedRun_time {tie : Bool} {s : State} (h : s.urgent tie = none) (d : Nat) (r : List EnvEvent) :
    armedRun tie (.time d :: r) s =
      if s.deadline < s.now + d then s.runOut else armedRun tie r (s.withNow (s.now + d)) := by rw [armedRun, h]

section
variable {tie : Bool} {s : State} {n : Nat} (hnow : s.now = s.w.tArm + n)
include hnow

/-- R196: a wait that has come to its deadline fails there, whatever follows. -/
theorem armedRun_expired (l : List EnvEvent) (hedge : s.w.edge = false) (hn : n = s.w.tmo) (htie : tie = false) :
    s.waitEnds (armedRun tie l s) (edgeOutcome (firstFall s.w.prev n l) s.w.tmo tie) := by
  have hlate : ∀ k, firstFall s.w.prev n l = some k → s.w.tmo < k ∨ s.w.tmo = k ∧ tie = false := fun k hk =>
    (Nat.lt_or_eq_of_le (hn ▸ firstFall_ge hk)).imp_right fun h => ⟨h, htie⟩
  rw [armedRun_of_urgent (urgent_of_expired hnow hedge hn.ge htie), edgeOutcome_of_late hlate]
  exact expire_waitEnds (hn ▸ hnow)

/-- R196: a wait with an edge that counts succeeds at that edge, whatever follows. -/
theorem armedRun_signaled (l : List EnvEvent) (hedge : s.w.edge = true) (hn : n < s.w.tmo ∨ n = s.w.tmo ∧ tie = true) :
    s.waitEnds (armedRun tie l s) (edgeOutcome (some n) s.w.tmo tie) := by
  have hend : edgeOutcome (some n) s.w.tmo tie = (true, n) := by
    obtain h | ⟨rfl, rfl⟩ := hn
    · exact edgeOutcome_of_lt h tie
    · exact edgeOutcome_at _ true
  rw [armedRun_of_urgent (urgent_of_edge hnow hedge (hn.imp_right And.right)), hend]
  exact signal_waitEnds hnow

end

/-- R196, R197: from `n` microseconds after arming, with no edge seen yet, the small steps end as the trace form says. -/
theorem armedRun_waitEnds {tie : Bool} (l : List EnvEvent) {s : State} {n : Nat} (hnow : s.now = s.w.tArm + n)
    (hedge : s.w.edge = false) (hn : n ≤ s.w.tmo) :
    s.waitEnds (armedRun tie l s) (edgeOutcome (firstFall s.w.prev n l) s.w.tmo tie) := by
  induction l generalizing s n with
  | nil =>
    obtain ⟨hfire, htie⟩ | hwait := expires_or_waits tie hn
    · exact armedRun_expired hnow [] hedge hfire htie
    · rw [armedRun, urgent_none hnow hedge (hwait.imp_right And.right)]
      exact runOut_waitEnds (hnow ▸ Nat.add_le_add_left hn _)
  | cons e r ih =>
    obtain ⟨hfire, htie⟩ | hwait := expires_or_waits tie hn
    · exact armedRun_expired hnow _ hedge hfire htie
    · have hnone := urgent_none hnow hedge (hwait.imp_right And.right)
      cases e with
      | line b =>
        rw [armedRun_line hnone, firstFall]
        split
        case isTrue hfall => exact armedRun_signaled (s := s.onLine b) hnow r (by simp [State.onLine, hfall]) hwait
        case isFalse hfall => exact ih (s := s.onLine b) hnow (by simpa [State.onLine, hedge] using hfall) hn
      | time d =>
        rw [armedRun_time hnone, firstFall, State.deadline, hnow, Nat.add_assoc]
        split
        case isTrue hover =>
          have hlate : ∀ k, firstFall s.w.prev (n + d) r = some k → s.w.tmo < k ∨ s.w.tmo = k ∧ tie = false :=
            fun k hk => .inl (by have := firstFall_ge hk; omega)
          rw [edgeOutcome_of_late hlate]
          exact runOut_waitEnds (hnow ▸ Nat.add_le_add_left hn _)
        case isFalse hwithin =>
          exact ih (s := s.withNow (s.w.tArm + (n + d))) rfl hedge (Nat.le_of_add_le_add_left (Nat.le_of_not_lt hwithin))

/-! ### The operation -/

/-- R194: the timeout that bit `a` selects. -/
theorem resolveTimeout_eq (a : Bool) (s : State) : resolveTimeout a s =
    if a then max 1000 (2 * s.sh.avg * (s.sh.vbusct * s.sh.mv.toNat + s.sh.ishct * s.sh.mc.toNat)) else s.opt := rfl

/-- R193, R197: the wait of WAIT_EDGE from `s`, with the draw `d` of its armed part, ended in `t` with the bit `b`. -/
structure EdgeWaited (T : Nat) (d : Draw) (s t : State) (b : Bool) : Prop where
  idle : t.fsm = .idle
  armed : t.w.tArm = s.pause.now ∧ t.w.tmo = T
  outcome : b = (edgeOutcome (firstFall s.pause.alertN 0 d.events) T d.tie).1
  now : t.now = s.pause.now + (edgeOutcome (firstFall s.pause.alertN 0 d.events) T d.tie).2
  kept : t.sh = s.sh ∧ t.dev = s.dev ∧ t.trace = s.trace ∧ t.p = s.p ∧ sameSession s t
  script : t.env = s.pause.drop.env

/-- R197: with an alert pin the wait always ends, and as the trace form says. -/
theorem waitEdgeFor_waited (T : Nat) {s : State} (hpin : s.session.alertPin = true) :
    ∃ t b, waitEdgeFor T s = .ok b t ∧ EdgeWaited T s.pause.nextDraw s t b := by
  rw [waitEdgeFor, if_pos hpin, edgeWait]
  generalize s.pause.nextDraw = d
  obtain ⟨hsignaled, hnow⟩ := armedRun_waitEnds (tie := d.tie) d.events (s := s.pause.drop.armEdge T) (n := 0) rfl rfl
    (Nat.zero_le _)
  obtain ⟨hwait, _⟩ := armedRun_ends d.tie d.events (s.pause.drop.armEdge T)
  generalize armedRun d.tie d.events (s.pause.drop.armEdge T) = u at hsignaled hnow hwait ⊢
  obtain ⟨b, n, prev, edge, f, _, rfl⟩ := hwait
  refine ⟨_, _, rfl, rfl, ⟨rfl, rfl⟩, hsignaled, hnow, ?_, rfl⟩
  simp [State.armEdge, State.drop, sameSession]

theorem exec_waitEdge_of_ok {a b : Bool} {s t : State} (h : waitEdgeFor (resolveTimeout a s) s = .ok b t) :
    exec (.waitEdge a) s = .next (t.answer (.bit b)) :=
  congrArg (fun r : Res Bool => complete (r.bind fun b t => .ok (.bit b) t)) h

/-- Settles O49: the small steps end as the trace form says, and the statement spells the trace form out. -/
theorem waitEdgeFollowsTheTrace : Obligations.WaitEdgeFollowsTheTrace := by
  intro s a g d rest T hpin hs he hT
  rw [← resolveTimeout_eq] at hT
  subst hT
  have hpause : s.pause.env = d :: rest := pause_env_of_cons s he
  obtain ⟨t, b, ht, hwaited⟩ := waitEdgeFor_waited (resolveTimeout a s) hpin
  rw [nextDraw_of_env _ hpause] at hwaited
  obtain ⟨hidle, ⟨htArm, htmo⟩, hb, hnow, ⟨hsh, hdev, htrace, hp, hsession⟩, hscript⟩ := hwaited
  rw [drop_of_env _ hpause] at hscript
  refine ⟨_, exec_waitEdge_of_ok ht, hsh, hdev, htrace, hidle, hp, hsession, hscript, htArm, htmo, ?_⟩
  rw [State.answer_resp, State.answer_now, hb, hnow]
  cases firstFall s.pause.alertN 0 d.events with
  | none => exact ⟨rfl, rfl⟩
  | some k =>
    simp only [edgeOutcome]
    split
    · exact ⟨rfl, rfl⟩
    · split <;> exact ⟨rfl, rfl⟩

/-- Settles O50: no outcome of the trace form comes after the timeout. -/
theorem waitEdgeEndsByItsDeadline : Obligations.WaitEdgeEndsByItsDeadline := by
  intro s a hpin
  rw [← resolveTimeout_eq]
  obtain ⟨t, b, ht, hidle, ⟨htArm, htmo⟩, _, hnow, ⟨hsh, hdev, htrace, _⟩, _⟩ :=
    waitEdgeFor_waited (resolveTimeout a s) hpin
  refine ⟨_, b, exec_waitEdge_of_ok ht, rfl, ?_, ?_, htmo, hidle, hsh, hdev, htrace⟩
  · rw [State.answer_now, State.answer_w, htArm, htmo, hnow]
    exact Nat.add_le_add_left (edgeOutcome_le _ _ _) _
  · rw [State.answer_w, htArm]
    exact pause_now_le s

end Sys2Proof.Machine
end

section
/-! WAIT_FLAG: the polls that show nothing, and the one that ends the wait (R199, R200). -/

namespace Sys2Proof.Machine

/-! ### The script and the time base under one access -/

theorem regRead_env (r : DevReg) (s : State) : (regRead r s).state.env = s.env.tail := by
  unfold regRead
  split <;> rfl

theorem regWrite_env (r : DevReg) (v : Word) (s : State) : (regWrite r v s).state.env = s.env.tail := by
  unfold regWrite
  split <;> rfl

/-- R298: time passes in an access as its draw says. -/
theorem regRead_now (r : DevReg) (s : State) : (regRead r s).state.now = s.now + elapsed s.nextDraw.events := by
  unfold regRead
  split <;> rfl

theorem regWrite_now (r : DevReg) (v : Word) (s : State) :
    (regWrite r v s).state.now = s.now + elapsed s.nextDraw.events := by
  unfold regWrite
  split <;> rfl

/-! ### CVRF -/

/-- R63: the device's own change of the flags in `k`, bit by bit. -/
theorem ownChange_getElem (m k : Word) (c : Option Bool) (i : Nat) (hi : i < 16) :
    (ownChange m k c)[i] = if k[i] then c.getD m[i] else m[i] := by
  cases c with
  | none => simp [ownChange]
  | some b => exact setBits_getElem m k b i hi

theorem ownAff_bit3 (m : Word) (c : Option Bool) : (ownAff m c)[3] = m[3] := by
  unfold ownAff
  split
  · rfl
  · simp [ownChange_getElem, affMask]

/-- R63: CVRF is what the device makes it, or what it was. -/
theorem cvrfOf_ownFlags (m : Word) (d : Draw) : cvrfOf (ownFlags m d) = d.cvrf.getD (cvrfOf m) := by
  show (ownFlags m d)[3] = d.cvrf.getD m[3]
  rw [ownFlags, ownChange_getElem, ownChange_getElem, ownAff_bit3]
  rfl

theorem quietDraw_flagsQuiet : flagsQuiet quietDraw := ⟨rfl, rfl, rfl⟩

/-! ### One poll -/

/-- One poll from `s` that read `me` and left `t` (R54, R60). -/
structure PollRead (s t : State) (me : Word) : Prop where
  kept : s.accessOnly t
  stored : ∀ r, t.dev.stored r = s.dev.stored r
  cleared : cvrfOf t.dev.mask = false
  trace : t.trace = s.trace ++ [.read 0x06 me]

/-- R60: a poll that the draw lets pass. -/
theorem regRead_mask_poll {s : State} {d : Draw} {rest : List Draw} (he : s.env = d :: rest) (hd : d.fails = false) :
    ∃ t me, regRead .mask s = .ok me t ∧ PollRead s t me ∧ cvrfOf me = d.cvrf.getD (cvrfOf s.dev.mask) ∧
      t.env = rest ∧ t.now = s.now + elapsed d.events := by
  obtain ⟨t, ht, ha, henv, hdev, htrace⟩ := regRead_succeeds s .mask he hd
  have hnow := regRead_now .mask s
  rw [ht, nextDraw_of_env s he] at hnow
  have hcleared : cvrfOf t.dev.mask = false := by
    obtain ⟨hcvrf, _⟩ := clearOnRead_flags (ownFlags s.dev.mask d) d
    rw [hdev]
    exact hcvrf
  exact ⟨t, _, ht, ⟨ha, fun r => by simp [hdev], hcleared, htrace⟩, cvrfOf_ownFlags _ _, henv, hnow⟩

theorem pollLoop_of_read {s t : State} {me : Word} (h : regRead .mask s = .ok me t) (n : Nat) :
    pollLoop (n + 1) s =
      if cvrfOf me then Res.settled t.signal
      else if t.expired then Res.settled t.expire
      else pollLoop n (t.withNow (t.now + t.session.pollInterval)) := by
  rw [pollLoop, h, bind_ok]

/-! ### Polls that show nothing -/

/-- From `s` to `t` polls passed that read `words`, none with CVRF, each followed by one sleep (R200). -/
structure Polled (words : List Word) (s t : State) : Prop where
  kept : s.accessOnly t
  stored : ∀ r, t.dev.stored r = s.dev.stored r
  cvrf : cvrfOf t.dev.mask = cvrfOf s.dev.mask
  now : t.now = s.now + words.length * s.session.pollInterval
  trace : t.trace = s.trace ++ words.map (Txn.read 0x06)
  shown : ∀ w ∈ words, cvrfOf w = false

theorem withNow_accessOnly {s : State} {n : Nat} (h : s.now ≤ n) : s.accessOnly (s.withNow n) :=
  ⟨rfl, rfl, rfl, rfl, rfl, rfl, rfl, rfl, rfl, h⟩

theorem Polled.refl (s : State) : Polled [] s s :=
  ⟨withNow_accessOnly (Nat.le_refl _), fun _ => rfl, rfl, by simp, by simp, by simp⟩

/-- One more poll that showed nothing, and its sleep, before the others. -/
theorem Polled.cons {s t u : State} {me : Word} {words : List Word} (hread : PollRead s t me) (hnow : t.now = s.now)
    (hs : cvrfOf s.dev.mask = false) (hme : cvrfOf me = false)
    (h : Polled words (t.withNow (t.now + t.session.pollInterval)) u) : Polled (me :: words) s u where
  kept := accessOnly_trans _ _ _ hread.kept (accessOnly_trans _ _ _ (withNow_accessOnly (Nat.le_add_right _ _)) h.kept)
  stored r := (h.stored r).trans (hread.stored r)
  cvrf := by rw [h.cvrf, hs]; exact hread.cleared
  now := by
    rw [h.now, List.length_cons, Nat.succ_mul, State.withNow_now, State.withNow_session, hnow,
      session_of_accessOnly hread.kept]
    omega
  trace := by rw [h.trace, State.withNow_trace, hread.trace, List.append_assoc]; rfl
  shown := List.forall_mem_cons.mpr ⟨hme, h.shown⟩

/-- R200: while the timeout has not elapsed, a poll that shows nothing leads on to the next. -/
theorem pollLoop_polled {s : State} {rest : List Draw} (n : Nat) {k : Nat} (he : s.env = List.replicate k quietDraw ++ rest)
    (hk : k = 0 ∨ cvrfOf s.dev.mask = false ∧ s.now - s.w.tArm + (k - 1) * s.session.pollInterval < s.w.tmo) :
    ∃ t words, pollLoop (k + n) s = pollLoop n t ∧ Polled words s t ∧ words.length = k ∧ t.env = rest := by
  induction k generalizing s with
  | zero => exact ⟨s, [], by rw [Nat.zero_add], Polled.refl s, rfl, he⟩
  | succ k ih =>
    obtain ⟨hcvrf, htime⟩ := hk.resolve_left (Nat.succ_ne_zero k)
    rw [Nat.add_sub_cancel] at htime
    obtain ⟨t, me, ht, hread, hme, henv, hnow⟩ := regRead_mask_poll (d := quietDraw) he rfl
    replace hnow : t.now = s.now := hnow
    have hshown : cvrfOf me = false := hme.trans hcvrf
    obtain ⟨hsession, _, _, hw, _⟩ := hread.kept
    have hexpired : t.expired = false := by
      rw [State.expired, hw, hnow, decide_eq_false_iff_not]
      omega
    have hlater : k = 0 ∨ cvrfOf t.dev.mask = false ∧
        t.now + t.session.pollInterval - t.w.tArm + (k - 1) * t.session.pollInterval < t.w.tmo := by
      refine k.eq_zero_or_pos.imp_right fun hpos => ⟨hread.cleared, ?_⟩
      have hmul : k * s.session.pollInterval = (k - 1) * s.session.pollInterval + s.session.pollInterval := by
        rw [← Nat.succ_mul, Nat.succ_eq_add_one, Nat.sub_add_cancel hpos]
      rw [hsession, hw, hnow]
      omega
    obtain ⟨u, words, hu, hpolled, hlength, huenv⟩ := ih (s := t.withNow (t.now + t.session.pollInterval)) henv hlater
    refine ⟨u, me :: words, ?_, hpolled.cons hread hnow hcvrf hshown, congrArg (· + 1) hlength, huenv⟩
    rw [Nat.add_right_comm, pollLoop_of_read ht, hshown, hexpired]
    exact hu

/-! ### The operation -/

theorem armFlag_polled {T : Nat} {words : List Word} {s t : State} (h : Polled words (s.armFlag T) t) :
    t.sh = s.sh ∧ t.p = s.p ∧ sameSession s t ∧ t.w.tArm = s.now ∧ t.w.tmo = T := by
  obtain ⟨hsession, hsh, _, hw, hp, hopt, hopq, _, hhost, _⟩ := h.kept
  exact ⟨hsh, hp, ⟨hsession, hopt, hopq, hhost⟩, congrArg WaitRegs.tArm hw, congrArg WaitRegs.tmo hw⟩

/-- R200: the fuel of a WAIT_FLAG is enough for `k` polls that show nothing before the timeout, and one more. -/
theorem waitFlagFor_polled {s : State} {rest : List Draw} {T k : Nat} (he : s.env = List.replicate k quietDraw ++ rest)
    (hk : k = 0 ∨ cvrfOf s.dev.mask = false ∧ (k - 1) * s.session.pollInterval < T) :
    ∃ t words n, waitFlagFor T s = pollLoop (n + 1) t ∧ Polled words (s.armFlag T) t ∧ words.length = k ∧ t.env = rest := by
  have hfuel : k ≤ T := by
    obtain rfl | ⟨_, hlt⟩ := hk
    · exact Nat.zero_le T
    · have := Nat.le_mul_of_pos_right (k - 1) s.session.pollInterval_pos
      omega
  obtain ⟨n, rfl⟩ := Nat.exists_eq_add_of_le hfuel
  obtain ⟨t, words, ht, hpolled, hlength, henv⟩ :=
    pollLoop_polled (s := s.armFlag (k + n)) (n + 1) he (hk.imp_right fun h => ⟨h.1, by
      show s.now - s.now + _ < k + n
      rw [Nat.sub_self, Nat.zero_add]
      exact h.2⟩)
  exact ⟨t, words, n, ht, hpolled, hlength, henv⟩

theorem exec_waitFlag_of_ok {a b : Bool} {s t : State} (h : waitFlagFor (resolveTimeout a s) s = .ok b t) :
    exec (.waitFlag a) s = .next (t.answer (.bit b)) :=
  congrArg (fun r : Res Bool => complete (r.bind fun b t => .ok (.bit b) t)) h

theorem exec_waitFlag_of_err {a : Bool} {e : OpError} {s t : State} (h : waitFlagFor (resolveTimeout a s) s = .err e t) :
    exec (.waitFlag a) s = .next (t.raise e) :=
  congrArg (fun r : Res Bool => complete (r.bind fun b t => .ok (.bit b) t)) h

/-- The words of polls that showed nothing, flag by flag. -/
theorem Polled.map_cvrfOf {words : List Word} {s t : State} (h : Polled words s t) :
    words.map cvrfOf = List.replicate words.length false := List.map_eq_replicate_iff.mpr h.shown

/-- R200: the poll that ends the wait shows CVRF, or shows none once the timeout has elapsed; `b` says which. -/
theorem waitFlag_answers {s : State} {a b : Bool} {T k : Nat} {d : Draw} {rest : List Draw} (hT : T = resolveTimeout a s)
    (hk : k = 0 ∨ cvrfOf s.dev.mask = false ∧ (k - 1) * s.session.pollInterval < T)
    (he : s.env = List.replicate k quietDraw ++ d :: rest) (hd : d.fails = false) (hevents : d.events = [])
    (hb : d.cvrf.getD (cvrfOf s.dev.mask) = b) (hends : b = true ∨ T ≤ k * s.session.pollInterval) :
    ∃ (t : State) (words : List Word), exec (.waitFlag a) s = .next t ∧ t.resp = .done (.bit b) ∧
      cvrfOf t.dev.mask = false ∧ t.now = s.now + k * s.session.pollInterval ∧ t.fsm = .idle ∧ t.sh = s.sh ∧ t.env = rest ∧
      t.p = s.p ∧ sameSession s t ∧ t.trace = s.trace ++ words.map (Txn.read 6) ∧
      words.map cvrfOf = List.replicate k false ++ [b] ∧ ∀ r, t.dev.stored r = s.dev.stored r := by
  subst hT
  obtain ⟨t, words, n, ht, hpolled, rfl, henv⟩ := waitFlagFor_polled he hk
  obtain ⟨u, me, hu, hread, hme, huenv, hunow⟩ := regRead_mask_poll henv hd
  rw [pollLoop_of_read hu] at ht
  replace hme : cvrfOf me = b := by rw [hme, hpolled.cvrf]; exact hb
  obtain ⟨hsh, hp, ⟨hsession, hopt, hopq, hhost⟩, htArm, htmo⟩ := armFlag_polled hpolled
  obtain ⟨husession, hush, _, huw, hup, huopt, huopq, _, huhost, _⟩ := hread.kept
  have hnow : u.now = s.now + words.length * s.session.pollInterval := by
    rw [hunow, hevents, elapsed_nil, Nat.add_zero, hpolled.now]
    rfl
  have hended : ∃ f, waitFlagFor (resolveTimeout a s) s = .ok b ((u.withFsm f).withFsm .idle) := by
    cases b with
    | true => exact ⟨.signaled, by rw [ht, if_pos hme]; rfl⟩
    | false =>
      have hexpired : u.expired = true := by
        rw [State.expired, huw, htArm, htmo, hnow, decide_eq_true_iff]
        have := hends.resolve_left Bool.false_ne_true
        omega
      exact ⟨.timedOut, by rw [ht, hme, hexpired]; rfl⟩
  obtain ⟨f, hf⟩ := hended
  refine ⟨_, words ++ [me], exec_waitFlag_of_ok hf, rfl, hread.cleared, hnow, rfl, hush.trans hsh, huenv, hup.trans hp,
    ⟨husession.trans hsession, huopt.trans hopt, huopq.trans hopq, huhost.trans hhost⟩, ?_, ?_,
    fun r => (hread.stored r).trans (hpolled.stored r)⟩
  · rw [List.map_append, ← List.append_assoc]
    exact hread.trace.trans (congrArg (· ++ [Txn.read 0x06 me]) hpolled.trace)
  · rw [List.map_append, hpolled.map_cvrfOf, List.map_singleton, hme]

/-- Settles O52: in each case the last poll's word is the draw's, or the one CVRF stood at. -/
theorem waitFlagPollsUntilFlagOrDeadline : Obligations.WaitFlagPollsUntilFlagOrDeadline := by
  intro s a T n d rest hs hT hn he hd hevents
  refine ⟨fun hset => ?signals, fun hclear helapsed => ?expires⟩
  case signals =>
    have hb : d.cvrf.getD (cvrfOf s.dev.mask) = true := by
      obtain h | ⟨h, hnone⟩ := hset
      · rw [h]; rfl
      · rw [hnone, h]; rfl
    exact waitFlag_answers hT hn he hd hevents hb (.inl rfl)
  case expires =>
    have hb : d.cvrf.getD (cvrfOf s.dev.mask) = false := by
      obtain h | ⟨h, hnone⟩ := hclear
      · rw [h]; rfl
      · rw [hnone, h]; rfl
    rw [List.replicate_succ']
    exact waitFlag_answers hT hn he hd hevents hb (.inr helapsed)

/-- Settles O53: the failed read ends the loop, and raising its error sets `fsm` Idle. -/
theorem waitFlagAbortsOnFailedRead : Obligations.WaitFlagAbortsOnFailedRead := by
  intro s a T n d rest hT hn he hd
  rw [← resolveTimeout_eq] at hT
  subst hT
  obtain ⟨t, words, m, ht, hpolled, rfl, henv⟩ := waitFlagFor_polled he hn
  obtain ⟨u, hu, ha, huenv, hstored, htrace, _⟩ := regRead_fails t .mask henv hd
  rw [pollLoop, hu, bind_err] at ht
  obtain ⟨hsh, hp, ⟨hsession, hopt, hopq, hhost⟩, _⟩ := armFlag_polled hpolled
  obtain ⟨husession, hush, _, _, hup, huopt, huopq, _, huhost, hunow⟩ := ha
  refine ⟨_, words, exec_waitFlag_of_err ht, rfl, rfl, hush.trans hsh, huenv, hup.trans hp,
    ⟨husession.trans hsession, huopt.trans hopt, huopq.trans hopq, huhost.trans hhost⟩, ?_, ?_, hpolled.map_cvrfOf,
    fun r => (hstored r).trans (hpolled.stored r)⟩
  · exact hpolled.now.symm.trans_le hunow
  · exact htrace.trans (congrArg (· ++ [Txn.readFailed 0x06]) hpolled.trace)

end Sys2Proof.Machine
end

section
/-! The settings of the shadow as fields of Configuration and Mask/Enable: what one update does to the unpacked settings
(R80, R83, R84), and the words that settings determine (R283). -/

namespace Sys2Proof.Machine

/-! ### Fields of a merged word -/

theorem mergeBits_getLsbD (w m v : Word) {i : Nat} (hi : i < 16) :
    (mergeBits w m v).getLsbD i = (w.getLsbD i && !m.getLsbD i || v.getLsbD i) := by
  simp [mergeBits, hi]

section
variable {w m v : Word} {lo n : Nat}

/-- R83: a field that an update replaces holds the new content. -/
theorem extract_mergeBits_same (h : lo + n ≤ 16) (hm : m.extractLsb' lo n = BitVec.allOnes n) :
    (mergeBits w m v).extractLsb' lo n = v.extractLsb' lo n := by
  ext j hj
  have hbit := congrArg (fun x : BitVec n => x[j]) hm
  simp only [BitVec.getElem_extractLsb', BitVec.getElem_allOnes] at hbit ⊢
  rw [mergeBits_getLsbD _ _ _ (by omega), hbit]
  simp

/-- R83: a field beside it is as it was. -/
theorem extract_mergeBits_other (h : lo + n ≤ 16) (hm : m.extractLsb' lo n = 0) (hv : v.extractLsb' lo n = 0) :
    (mergeBits w m v).extractLsb' lo n = w.extractLsb' lo n := by
  ext j hj
  have hmask := congrArg (fun x : BitVec n => x[j]) hm
  have hvalue := congrArg (fun x : BitVec n => x[j]) hv
  simp only [BitVec.getElem_extractLsb'] at hmask hvalue ⊢
  rw [mergeBits_getLsbD _ _ _ (by omega), hmask, hvalue]
  simp

end

/-! ### One update and the unpacked settings -/

/-- R83: an update of a field above the mode bits leaves them. -/
theorem modeBits_mergeBits (w : Word) {base : Nat} (hbase : 3 ≤ base) (j k : Nat) :
    ∀ i < 3, (mergeBits w (fieldValue j base) (fieldValue k base)).getLsbD i = w.getLsbD i := by
  intro i hi
  have hbelow : ∀ n, (fieldValue n base).getLsbD i = false := fun n => by
    simp [fieldValue_getLsbD, show ¬ base ≤ i by omega]
  rw [mergeBits_getLsbD _ _ _ (by omega), hbelow, hbelow]
  simp

section
variable (w : Word)

/-- R83: an index field lies outside the other two and above the mode bits. -/
theorem cfgUnpack_indexField {k base : Nat} (hk : k < 2 ^ 3) (hbase : base ∈ [3, 6, 9]) {m : Word}
    (hm : m = fieldValue 7 base) :
    cfgUnpack (mergeBits w m (fieldValue k base)) =
      (tableAt Config.avgTable (if base = 9 then BitVec.ofNat 3 k else w.extractLsb' 9 3),
        tableAt Config.ctTable (if base = 6 then BitVec.ofNat 3 k else w.extractLsb' 6 3),
        tableAt Config.ctTable (if base = 3 then BitVec.ofNat 3 k else w.extractLsb' 3 3), (cfgUnpack w).2.2.2) := by
  subst hm
  have hbase' : base = 3 ∨ base = 6 ∨ base = 9 := by simpa using hbase
  have hfield : ∀ lo ∈ [3, 6, 9], (mergeBits w (fieldValue 7 base) (fieldValue k base)).extractLsb' lo 3 =
      if base = lo then BitVec.ofNat 3 k else w.extractLsb' lo 3 := by
    intro lo hlo
    have hlo' : lo = 3 ∨ lo = 6 ∨ lo = 9 := by simpa using hlo
    split
    case isTrue hsame =>
      subst hsame
      rw [extract_mergeBits_same (by omega) (extract_fieldValue_same _ _ _ (by omega)),
        extract_fieldValue_same _ _ _ (by omega)]
    case isFalse hother =>
      have hapart : lo + 3 ≤ base ∨ base + 3 ≤ lo := by omega
      exact extract_mergeBits_other (by omega) (extract_fieldValue_other (m := 3) (by decide) _ _ _ hapart)
        (extract_fieldValue_other hk _ _ _ hapart)
  have hmode := modeBits_mergeBits w (base := base) (by omega) 7 k
  simp only [cfgUnpack]
  rw [hfield 9 (by decide), hfield 6 (by decide), hfield 3 (by decide), hmode 2 (by decide), hmode 1 (by decide),
    hmode 0 (by decide)]

theorem cfgUnpack_avgField {count : Nat} (h : count ∈ Config.avgTable) :
    cfgUnpack ((avgField count).over w) = (count, (cfgUnpack w).2) := by
  obtain ⟨hlt, hback⟩ := tableAt_indexOf avgTable_length h
  exact (cfgUnpack_indexField w (base := 9) hlt (by decide) rfl).trans (congrArg (·, (cfgUnpack w).2) hback)

theorem cfgUnpack_busCtField {us : Nat} (h : us ∈ Config.ctTable) :
    cfgUnpack ((busCtField us).over w) = ((cfgUnpack w).1, us, (cfgUnpack w).2.2) := by
  obtain ⟨hlt, hback⟩ := tableAt_indexOf ctTable_length h
  exact (cfgUnpack_indexField w (base := 6) hlt (by decide) rfl).trans
    (congrArg ((cfgUnpack w).1, ·, (cfgUnpack w).2.2) hback)

theorem cfgUnpack_shuntCtField {us : Nat} (h : us ∈ Config.ctTable) :
    cfgUnpack ((shuntCtField us).over w) = ((cfgUnpack w).1, (cfgUnpack w).2.1, us, (cfgUnpack w).2.2.2) := by
  obtain ⟨hlt, hback⟩ := tableAt_indexOf ctTable_length h
  exact (cfgUnpack_indexField w (base := 3) hlt (by decide) rfl).trans
    (congrArg ((cfgUnpack w).1, (cfgUnpack w).2.1, ·, (cfgUnpack w).2.2.2) hback)

/-- A mode bit lies outside the three index fields. -/
theorem cfgUnpack_bitField {base : Nat} (hbase : base < 3) {m : Word} (hm : m = bitValue true base) (b : Bool) :
    cfgUnpack (mergeBits w m (bitValue b base)) =
      ((cfgUnpack w).1, (cfgUnpack w).2.1, (cfgUnpack w).2.2.1, if base = 2 then b else w.getLsbD 2,
        if base = 1 then b else w.getLsbD 1, if base = 0 then b else w.getLsbD 0) := by
  subst hm
  have hother : ∀ c : Bool, ∀ lo, 3 ≤ lo → (bitValue c base).extractLsb' lo 3 = 0 := fun c lo hlo =>
    extract_fieldValue_other (m := 1) (Bool.toNat_lt c) _ _ _ (.inr (by omega))
  have hbit : ∀ i < 3, (mergeBits w (bitValue true base) (bitValue b base)).getLsbD i =
      if base = i then b else w.getLsbD i := by
    intro i hi
    have hlow : ∀ c : Bool, (bitValue c base).getLsbD i = (decide (base = i) && c) := by
      have hall : ∀ c : Bool, ∀ k < 3, ∀ i < 3, (bitValue c k).getLsbD i = (decide (k = i) && c) := by decide
      exact fun c => hall c base hbase i hi
    rw [mergeBits_getLsbD _ _ _ (by omega), hlow, hlow]
    split <;> simp [*]
  simp only [cfgUnpack]
  rw [extract_mergeBits_other (by decide) (hother true 9 (by decide)) (hother b 9 (by decide)),
    extract_mergeBits_other (by decide) (hother true 6 (by decide)) (hother b 6 (by decide)),
    extract_mergeBits_other (by decide) (hother true 3 (by decide)) (hother b 3 (by decide)),
    hbit 2 (by decide), hbit 1 (by decide), hbit 0 (by decide)]

theorem cfgUnpack_contField (b : Bool) : cfgUnpack ((contField b).over w) =
    ((cfgUnpack w).1, (cfgUnpack w).2.1, (cfgUnpack w).2.2.1, b, (cfgUnpack w).2.2.2.2) :=
  cfgUnpack_bitField w (base := 2) (by decide) rfl b

theorem cfgUnpack_measVField (b : Bool) : cfgUnpack ((measVField b).over w) =
    ((cfgUnpack w).1, (cfgUnpack w).2.1, (cfgUnpack w).2.2.1, (cfgUnpack w).2.2.2.1, b, (cfgUnpack w).2.2.2.2.2) :=
  cfgUnpack_bitField w (base := 1) (by decide) rfl b

theorem cfgUnpack_measIField (b : Bool) : cfgUnpack ((measIField b).over w) =
    ((cfgUnpack w).1, (cfgUnpack w).2.1, (cfgUnpack w).2.2.1, (cfgUnpack w).2.2.2.1, (cfgUnpack w).2.2.2.2.1, b) :=
  cfgUnpack_bitField w (base := 0) (by decide) rfl b

end

/-! ### Settings determine the word -/

/-- Two words with the same field have the same bits there. -/
theorem getLsbD_of_extract_eq {w x : Word} {lo n : Nat} (h : w.extractLsb' lo n = x.extractLsb' lo n) {i : Nat}
    (hi : lo ≤ i ∧ i < lo + n) : w.getLsbD i = x.getLsbD i := by
  have hbit := congrArg (fun y : BitVec n => y.getLsbD (i - lo)) h
  simpa [show i - lo < n by omega, show lo + (i - lo) = i by omega] using hbit

/-- R84: the tables hold eight different members, so an index can be told from its member. -/
theorem tableAt_injective {table : List Nat} (h : table = Config.avgTable ∨ table = Config.ctTable) {i j : BitVec 3}
    (hij : tableAt table i = tableAt table j) : i = j := by
  have havg : ∀ i j : BitVec 3, tableAt Config.avgTable i = tableAt Config.avgTable j → i = j := by decide
  have hct : ∀ i j : BitVec 3, tableAt Config.ctTable i = tableAt Config.ctTable j → i = j := by decide
  obtain rfl | rfl := h
  · exact havg i j hij
  · exact hct i j hij

/-- R35, R84: a legal Configuration word is determined by its settings. -/
theorem config_eq_of_cfgUnpack {w x : Word} (hw : w &&& 0xF000 = configFixed) (hx : x &&& 0xF000 = configFixed)
    (h : cfgUnpack w = cfgUnpack x) : w = x := by
  simp only [cfgUnpack, Prod.mk.injEq] at h
  obtain ⟨havg, hv, hi, h2, h1, h0⟩ := h
  have h9 := tableAt_injective (.inl rfl) havg
  have h6 := tableAt_injective (.inr rfl) hv
  have h3 := tableAt_injective (.inr rfl) hi
  refine eq_of_masked (k := 0xF000) (hw.trans hx.symm) ?_
  refine BitVec.eq_of_getLsbD_eq fun i hi16 => ?_
  rw [BitVec.getLsbD_and, BitVec.getLsbD_and]
  rcases Nat.lt_or_ge i 12 with hi12 | hi12
  · congr 1
    rcases Nat.lt_or_ge i 9 with hi9 | hi9
    · rcases Nat.lt_or_ge i 6 with hi6 | hi6
      · rcases Nat.lt_or_ge i 3 with hi3 | hi3
        · interval_cases i
          · exact h0
          · exact h1
          · exact h2
        · exact getLsbD_of_extract_eq h3 ⟨hi3, hi6⟩
      · exact getLsbD_of_extract_eq h6 ⟨hi6, hi9⟩
    · exact getLsbD_of_extract_eq h9 ⟨hi9, hi12⟩
  · have hhigh : ∀ j < 16, 12 ≤ j → (~~~0xF000 : Word).getLsbD j = false := by decide
    rw [hhigh i hi16 hi12, Bool.and_false, Bool.and_false]

/-! ### The alert sources -/

/-- R130, R203: the codes of a legal mask collapse to that mask. -/
theorem collapse_sourcesOf {m : BitVec 6} (h : oneFunctional m = true) : collapse (sourcesOf m) = m := by
  revert m
  decide

theorem extract_sourceValue (m : BitVec 6) : (sourceValue m).extractLsb' 10 6 = m := by
  revert m
  decide

/-- R131: the six source bits of an updated Mask/Enable word. -/
theorem extract_sources (w : Word) (m : BitVec 6) : (mergeBits w 0xFC00 (sourceValue m)).extractLsb' 10 6 = m :=
  (extract_mergeBits_same (by decide) (by decide)).trans (extract_sourceValue m)

theorem extract_storedMask (w : Word) : (storedMask w).extractLsb' 10 6 = w.extractLsb' 10 6 := by
  unfold storedMask
  rw [BitVec.extractLsb'_and, show (0xFC03 : Word).extractLsb' 10 6 = BitVec.allOnes 6 by decide, BitVec.and_allOnes]

theorem sourceValue_getLsbD (m : BitVec 6) {i : Nat} (hi : i < 16) :
    (sourceValue m).getLsbD i = (decide (10 ≤ i) && m.getLsbD (i - 10)) := by
  simp only [sourceValue, BitVec.getLsbD_shiftLeft, BitVec.getLsbD_setWidth]
  grind

/-- R203: writing the source bits that a word already has leaves it. -/
theorem mergeBits_sources_self (w : Word) : mergeBits w 0xFC00 (sourceValue (w.extractLsb' 10 6)) = w := by
  have hmask : ∀ i < 16, (0xFC00 : Word).getLsbD i = decide (10 ≤ i) := by decide
  apply BitVec.eq_of_getLsbD_eq
  intro i hi
  rw [mergeBits_getLsbD _ _ _ hi, sourceValue_getLsbD _ hi, hmask i hi]
  rcases Nat.lt_or_ge i 10 with h | h
  · simp [Nat.not_le.mpr h]
  · simp [h, show i - 10 < 6 by omega]

end Sys2Proof.Machine
end

section
/-! Override and restore of WAIT_PEAK (R202, R203): six updates of Configuration and one of Mask/Enable, what they did when
they ended, and when they do. -/

namespace Sys2Proof.Machine

/-! ### The updates -/

/-- R21, R22, R24: settings that a setter accepts. -/
abbrev Saved.legal (x : Saved) : Prop :=
  x.avg ∈ Config.avgTable ∧ x.vbusct ∈ Config.ctTable ∧ x.ishct ∈ Config.ctTable ∧ oneFunctional x.amask = true

/-- The shadow with the settings `x`. -/
def Saved.applyTo (x : Saved) (sh : Shadow) : Shadow :=
  { sh with avg := x.avg, vbusct := x.vbusct, ishct := x.ishct, cont := x.cont, mv := x.mv, mc := x.mc, amask := x.amask }

/-- R202: what WAIT_PEAK overrides the caller's settings with. -/
def overrideSettings : Saved :=
  { avg := 1, vbusct := 140, ishct := 140, cont := true, mv := true, mc := false, amask := 0b000001 }

/-- The updates of Configuration that set `x`, in order. -/
def Saved.fields (x : Saved) : List FieldUpdate :=
  avgField x.avg :: busCtField x.vbusct :: shuntCtField x.ishct :: modeFields x.cont x.mv x.mc

/-- The update of Mask/Enable that sets the sources of `x`. -/
def Saved.sources (x : Saved) : FieldUpdate := alertField (sourcesOf x.amask)

/-- R202, R203: the settings `x` put into the device. -/
def configure (x : Saved) (s : State) : Res Unit :=
  (runUpdates x.fields s).bind fun _ t => x.sources.run .mask t

theorem bind_assoc {α β γ : Type} (r : Res α) (f : α → State → Res β) (g : β → State → Res γ) :
    (r.bind f).bind g = r.bind fun a t => (f a t).bind g := by cases r <;> rfl

theorem peakRestore_eq_configure {x : Saved} (hx : x.legal) (s : State) : peakRestore x s = configure x s := by
  obtain ⟨havg, hv, hi, _⟩ := hx
  simp only [peakRestore, setAvg_eq_run havg, setCt_bus_eq_run hv, setCt_shunt_eq_run hi, setMode_eq_runUpdates,
    setAlertSources_eq_run (firstUnrecognized_sourcesOf _), configure, Saved.fields, Saved.sources, runUpdates, bind_assoc]

theorem overrideSettings_legal : overrideSettings.legal := by decide

/-- R202: Conversion Ready is the source of code 0. -/
theorem peakOverride_eq_configure (s : State) : peakOverride s = configure overrideSettings s := by
  have hsources : sourcesOf overrideSettings.amask = [0] := by decide
  rw [← peakRestore_eq_configure overrideSettings_legal, peakRestore, hsources]
  rfl

theorem fields_fit {x : Saved} (hx : x.legal) : ∀ u ∈ x.fields, u.fits .config := by
  obtain ⟨havg, hv, hi, _⟩ := hx
  have index : ∀ {table : List Nat}, table.Nodup → table.length = 8 → ∀ {n}, n ∈ table → ∀ {base}, base ≤ 9 →
      fieldValue (indexOf table n) base &&& 0xF000 = 0 := fun hnodup hlength _ hn _ hbase =>
    indexField_low hnodup hlength (List.getElem?_idxOf hn) hbase
  simp only [Saved.fields, List.forall_mem_cons]
  exact ⟨fits_config (by decide) (index (by decide) rfl havg (by decide)),
    fits_config (by decide) (index (by decide) rfl hv (by decide)),
    fits_config (by decide) (index (by decide) rfl hi (by decide)), modeFields_fit _ _ _⟩

/-! ### What the updates come to -/

/-- The commits of `x`'s updates set the settings of `x`. -/
theorem commits_eq_applyTo {x : Saved} (hx : x.legal) (sh : Shadow) :
    x.sources.commit (shadowAfter x.fields sh) = x.applyTo sh := by
  obtain ⟨_, _, _, hone⟩ := hx
  show { shadowAfter x.fields sh with amask := collapse (sourcesOf x.amask) } = x.applyTo sh
  rw [collapse_sourcesOf hone]
  rfl

/-- R80, R84: the word that `x`'s updates leave holds the settings of `x`, whatever it held. -/
theorem cfgUnpack_wordAfter_fields {x : Saved} (hx : x.legal) (w : Word) :
    cfgUnpack (wordAfter x.fields w) = (x.avg, x.vbusct, x.ishct, x.cont, x.mv, x.mc) := by
  obtain ⟨havg, hv, hi, _⟩ := hx
  simp only [wordAfter, Saved.fields, modeFields, List.foldl_cons, List.foldl_nil]
  rw [cfgUnpack_measIField, cfgUnpack_measVField, cfgUnpack_contField, cfgUnpack_shuntCtField _ hi,
    cfgUnpack_busCtField _ hv, cfgUnpack_avgField _ havg]

theorem sources_over {x : Saved} (hx : x.legal) (w : Word) : x.sources.over w = mergeBits w 0xFC00 (sourceValue x.amask) := by
  obtain ⟨_, _, _, hone⟩ := hx
  show mergeBits w 0xFC00 (sourceValue (collapse (sourcesOf x.amask))) = _
  rw [collapse_sourcesOf hone]

/-- The bus trace of the updates of `x` from the Configuration word `c` and the Mask/Enable word `m`. -/
def Saved.trace (x : Saved) (c m : Word) : List Txn :=
  updatesTrace x.fields c ++ [.read 0x06 m, .write 0x06 (x.sources.over m)]

/-- R202, R203: the trace, with the tables' indices written out. -/
theorem saved_trace_eq {x : Saved} (hx : x.legal) {a v i : Nat} (ha : Config.avgTable[a]? = some x.avg)
    (hv : Config.ctTable[v]? = some x.vbusct) (hi : Config.ctTable[i]? = some x.ishct) (c m : Word) :
    x.trace c m = configureTrace c m a v i x.cont x.mv x.mc x.amask := by
  have havg : ∀ w, (avgField x.avg).over w = (w &&& 0xF1FF) ||| field a 9 := fun w => by
    rw [← fieldValue_indexOf (by decide) ha]
    exact congrArg (w &&& · ||| _) (by decide : ~~~(0x0E00 : Word) = 0xF1FF)
  have hbus : ∀ w, (busCtField x.vbusct).over w = (w &&& 0xFE3F) ||| field v 6 := fun w => by
    rw [← fieldValue_indexOf (by decide) hv]
    exact congrArg (w &&& · ||| _) (by decide : ~~~(0x01C0 : Word) = 0xFE3F)
  have hshunt : ∀ w, (shuntCtField x.ishct).over w = (w &&& 0xFFC7) ||| field i 3 := fun w => by
    rw [← fieldValue_indexOf (by decide) hi]
    exact congrArg (w &&& · ||| _) (by decide : ~~~(0x0038 : Word) = 0xFFC7)
  rw [Saved.trace, Saved.fields, updatesTrace, updatesTrace, updatesTrace, updatesTrace_modeFields, sources_over hx,
    sourceValue_eq_field, havg, hbus, hshunt]
  rfl

/-! ### One update that ended -/

/-- From `s` to `t`, if the next `n` draws are quiet, they were taken and no time passed. -/
def State.quietly (n : Nat) (s t : State) : Prop :=
  ∀ rest, s.env = List.replicate n quietDraw ++ rest → t.env = rest ∧ t.now = s.now

theorem quietly_trans {n m : Nat} {a b c : State} (h : a.quietly n b) (g : b.quietly m c) : a.quietly (n + m) c := by
  intro rest he
  rw [List.replicate_add, List.append_assoc] at he
  obtain ⟨hbenv, hbnow⟩ := h _ he
  obtain ⟨hcenv, hcnow⟩ := g _ hbenv
  exact ⟨hcenv, hcnow.trans hbnow⟩

theorem quietly_of_draw {s t : State} (henv : t.env = s.env.tail) (hnow : t.now = s.now + elapsed s.nextDraw.events) :
    s.quietly 1 t := by
  intro rest he
  rw [nextDraw_of_env s he] at hnow
  exact ⟨henv.trans (congrArg List.tail he), hnow⟩

/-- R56: an RMW that ended, by the two draws it took. -/
theorem rmw_ok {r : DevReg} {m v : Word} {s t : State} {u : Unit} (h : rmw r m v s = .ok u t) :
    ∃ d1 d2, t.dev = s.dev.afterRmw r m v d1 d2 ∧
      t.trace = s.trace ++ [.read r.addr ((s.dev.evolve d1).get r), .write r.addr (mergeBits ((s.dev.evolve d1).get r) m v)] ∧
      s.quietly 2 t ∧ ∀ rest, s.env = quietDraw :: quietDraw :: rest → d1 = quietDraw ∧ d2 = quietDraw := by
  unfold rmw at h
  have hfirst := quietly_of_draw (regRead_env r s) (regRead_now r s)
  cases hread : regRead r s with
  | err e b => rw [hread] at h; cases h
  | ok old b =>
    rw [hread] at h hfirst
    rw [bind_ok] at h
    have hsecond := quietly_of_draw (regWrite_env r (mergeBits old m v) b) (regWrite_now r (mergeBits old m v) b)
    rw [h] at hsecond
    obtain ⟨_, rfl, hb⟩ := regRead_ok s hread
    obtain ⟨_, ht⟩ := regWrite_ok b h
    refine ⟨s.nextDraw, b.nextDraw, by rw [ht, hb]; rfl, by rw [ht, hb]; simp [State.atAccess, State.drop],
      quietly_trans hfirst hsecond, fun rest he => ⟨nextDraw_of_env s he, nextDraw_of_env b (hfirst (quietDraw :: rest) he).1⟩⟩

/-- What an update of `r` that ended has done, whatever its draws. -/
structure FieldUpdate.Done (u : FieldUpdate) (r : DevReg) (s t : State) : Prop where
  shadow : t.sh = u.commit s.sh
  legal : t.dev.legal
  stored : t.dev.stored r = u.over (s.dev.stored r)
  frame : frame s t [r]
  quiet : s.quietly 2 t

/-- R56, R101: an update that ended committed its field, and nothing else. -/
theorem run_ok {u : FieldUpdate} {r : DevReg} {s t : State} (hl : s.dev.legal) (hu : u.fits r) (h : u.run r s = .ok () t) :
    u.Done r s t ∧ ∃ d1 d2, t.dev = s.dev.afterRmw r u.mask u.value d1 d2 ∧
      t.trace = s.trace ++ [.read r.addr ((s.dev.evolve d1).get r), .write r.addr (u.over ((s.dev.evolve d1).get r))] ∧
      ∀ rest, s.env = quietDraw :: quietDraw :: rest → d1 = quietDraw ∧ d2 = quietDraw := by
  have haccess := rmw_accessOnly (r := r) (v := u.value) u.mask s
  have hlegal := rmw_legal r u.value u.mask s hl
  unfold FieldUpdate.run at h
  cases hrmw : rmw r u.mask u.value s with
  | err e b => rw [hrmw] at h; cases h
  | ok v b =>
    rw [hrmw] at h haccess hlegal
    cases h
    obtain ⟨d1, d2, hdev, htrace, hquiet, hdraws⟩ := rmw_ok hrmw
    have hsh : b.sh = s.sh := sh_of_accessOnly haccess
    have hstored : b.dev.stored r = u.over (s.dev.stored r) := by rw [hdev]; exact afterRmw_stored d1 d2 hl hu
    have hother : ∀ q, q ∉ [r] → b.dev.stored q = s.dev.stored q := fun q hq => by
      rw [hdev]; exact afterRmw_stored_other d1 d2 hl hu q (List.ne_of_not_mem_cons hq)
    have hframe : frame s b [r] := frame_of_accessOnly haccess hother
    exact ⟨⟨congrArg u.commit hsh, hlegal, hstored, hframe, hquiet⟩, d1, d2, hdev, htrace,
      hdraws⟩

/-- R56: an update of Configuration reads what the device held. -/
theorem run_config_ok {u : FieldUpdate} {s t : State} (hl : s.dev.legal) (hu : u.fits .config)
    (h : u.run .config s = .ok () t) :
    u.Done .config s t ∧ t.trace = s.trace ++ [.read 0x00 s.dev.config, .write 0x00 (u.over s.dev.config)] ∧
      ∀ rest, s.env = quietDraw :: quietDraw :: rest → t.dev.mask = s.dev.mask := by
  obtain ⟨hdone, d1, d2, hdev, htrace, hdraws⟩ := run_ok hl hu h
  refine ⟨hdone, htrace, fun rest he => ?_⟩
  obtain ⟨rfl, rfl⟩ := hdraws rest he
  rw [hdev]
  exact afterRmw_config_mask _ _ hl hu quietDraw_flagsQuiet quietDraw_flagsQuiet

/-- R56, R60: an update of Mask/Enable reads the stored bits the device held, with flags that may have moved. -/
theorem run_mask_ok {u : FieldUpdate} {s t : State} (hl : s.dev.legal) (hu : u.fits .mask) (h : u.run .mask s = .ok () t) :
    ∃ old, u.Done .mask s t ∧ t.trace = s.trace ++ [.read 0x06 old, .write 0x06 (u.over old)] ∧
      storedMask old = storedMask s.dev.mask ∧
      ∀ rest, s.env = quietDraw :: quietDraw :: rest →
        old = s.dev.mask ∧ t.dev.mask = storeMask (clearOnRead s.dev.mask quietDraw) (u.over s.dev.mask) := by
  obtain ⟨hdone, d1, d2, hdev, htrace, hdraws⟩ := run_ok hl hu h
  refine ⟨_, hdone, htrace, ownFlags_storedMask _ _, fun rest he => ?_⟩
  obtain ⟨rfl, rfl⟩ := hdraws rest he
  have hold : ownFlags s.dev.mask quietDraw = s.dev.mask := ownFlags_quiet _ quietDraw_flagsQuiet
  refine ⟨hold, ?_⟩
  rw [hdev]
  show storeMask (ownFlags (clearOnRead (ownFlags s.dev.mask quietDraw) quietDraw) quietDraw)
    (u.over (ownFlags s.dev.mask quietDraw)) = _
  rw [ownFlags_quiet _ quietDraw_flagsQuiet, hold]

/-! ### Several updates that ended -/

/-- What the updates `l` of Configuration have done from `s` to `t`. -/
structure UpdatesDone (l : List FieldUpdate) (s t : State) : Prop where
  shadow : t.sh = shadowAfter l s.sh
  legal : t.dev.legal
  config : t.dev.config = wordAfter l s.dev.config
  frame : frame s t [.config]
  trace : t.trace = s.trace ++ updatesTrace l s.dev.config
  quiet : s.quietly (2 * l.length) t
  flags : ∀ rest, s.env = List.replicate (2 * l.length) quietDraw ++ rest → t.dev.mask = s.dev.mask

theorem UpdatesDone.refl {s : State} (hl : s.dev.legal) : UpdatesDone [] s s :=
  ⟨rfl, hl, rfl, frame_refl s _, (List.append_nil _).symm, fun _ he => ⟨he, rfl⟩, fun _ _ => rfl⟩

theorem runUpdates_ok {l : List FieldUpdate} {s t : State} (hl : s.dev.legal) (hfits : ∀ u ∈ l, u.fits .config)
    (h : runUpdates l s = .ok () t) : UpdatesDone l s t := by
  induction l generalizing s with
  | nil =>
    cases h
    exact UpdatesDone.refl hl
  | cons u l ih =>
    obtain ⟨hu, hrest⟩ := List.forall_mem_cons.mp hfits
    rw [runUpdates] at h
    cases hrun : u.run .config s with
    | err e b => rw [hrun] at h; cases h
    | ok v b =>
      rw [hrun, bind_ok] at h
      obtain ⟨hfirst, htrace, hmask⟩ := run_config_ok hl hu hrun
      have hconfig : b.dev.config = u.over s.dev.config := hfirst.stored
      have hothers := ih hfirst.legal hrest h
      have hsplit : 2 * (u :: l).length = 2 + 2 * l.length := by rw [List.length_cons]; omega
      refine ⟨hothers.shadow.trans (congrArg (shadowAfter l) hfirst.shadow), hothers.legal, ?_,
        frame_trans hfirst.frame hothers.frame, ?_, hsplit ▸ quietly_trans hfirst.quiet hothers.quiet, fun rest he => ?_⟩
      · rw [hothers.config, hconfig]
        rfl
      · rw [hothers.trace, htrace, hconfig, List.append_assoc]
        rfl
      · rw [hsplit, List.replicate_add, List.append_assoc] at he
        exact (hothers.flags rest (hfirst.quiet _ he).1).trans (hmask _ he)

/-! ### The settings of a whole override or restore -/

/-- R60, R61: a quiet read clears CVRF and AFF. -/
theorem clearOnRead_quiet (w : Word) {i : Nat} (hi : i < 16) :
    (clearOnRead w quietDraw).getLsbD i = (w.getLsbD i && decide (i ≠ 3 ∧ i ≠ 4)) := by
  have hbits : ∀ i (hi : i < 16), affMask[i] = decide (i = 4) ∧ cvrfMask[i] = decide (i = 3) := by decide
  obtain ⟨haff, hcvrf⟩ := hbits i hi
  rw [BitVec.getLsbD_eq_getElem hi, BitVec.getLsbD_eq_getElem hi, clearOnRead, setBits_getElem, setBits_getElem, haff, hcvrf]
  simp only [quietDraw, Bool.and_false, decide_eq_true_eq]
  grind

/-- R58, R60, R61: Mask/Enable after a quiet update of its sources: AFF and CVRF are gone. -/
theorem storeMask_sources (w : Word) (m : BitVec 6) :
    storeMask (clearOnRead w quietDraw) (mergeBits w 0xFC00 (sourceValue m)) = (w &&& 0x0007) ||| sourceValue m := by
  have hlow : ∀ i < 10, (sourceValue m).getLsbD i = false := fun i hi => by
    rw [sourceValue_getLsbD m (by omega)]
    simp [show ¬ 10 ≤ i by omega]
  have hconst : ∀ i < 16, (0xFC03 : Word).getLsbD i = decide (10 ≤ i ∨ i ≤ 1) ∧
      (0xFC00 : Word).getLsbD i = decide (10 ≤ i) ∧ (0x001C : Word).getLsbD i = decide (2 ≤ i ∧ i ≤ 4) ∧
      (0x0007 : Word).getLsbD i = decide (i ≤ 2) := by decide
  refine BitVec.eq_of_getLsbD_eq fun i hi => ?_
  obtain ⟨h1, h2, h3, h4⟩ := hconst i hi
  have hl := hlow i
  simp only [storeMask, BitVec.getLsbD_or, BitVec.getLsbD_and, mergeBits_getLsbD _ _ _ hi, clearOnRead_quiet _ hi, h1, h2, h3, h4]
  grind

/-- From `s` to `t` the settings `x` were put into the device, which answered `m` when Mask/Enable was read. -/
structure Configured (x : Saved) (s t : State) (m : Word) : Prop where
  shadow : t.sh = x.applyTo s.sh
  legal : t.dev.legal
  config : cfgUnpack t.dev.config = (x.avg, x.vbusct, x.ishct, x.cont, x.mv, x.mc)
  sources : storedMask t.dev.mask = mergeBits (storedMask s.dev.mask) 0xFC00 (sourceValue x.amask)
  frame : frame s t [.config, .mask]
  trace : t.trace = s.trace ++ x.trace s.dev.config m
  read : storedMask m = storedMask s.dev.mask
  quiet : s.quietly 14 t
  flags : ∀ rest, s.env = List.replicate 14 quietDraw ++ rest →
    m = s.dev.mask ∧ t.dev.mask = (s.dev.mask &&& 0x0007) ||| sourceValue x.amask

theorem frame_mono {s t : State} {l k : List DevReg} (h : frame s t l) (hlk : l ⊆ k) : frame s t k := by
  obtain ⟨hsession, hfsm, hw, hp, hnow, hstored⟩ := h
  exact ⟨hsession, hfsm, hw, hp, hnow, fun r hr => hstored r fun hl => hr (hlk hl)⟩

/-- What a whole override or restore that ended has done. -/
theorem configure_ok {x : Saved} {s t : State} (hx : x.legal) (hl : s.dev.legal) (h : configure x s = .ok () t) :
    ∃ m, Configured x s t m := by
  unfold configure at h
  cases hfields : runUpdates x.fields s with
  | err e b => rw [hfields] at h; cases h
  | ok v b =>
    rw [hfields, bind_ok] at h
    have hupdates := runUpdates_ok hl (fields_fit hx) hfields
    obtain ⟨m, hsources, htrace, hread, hflags⟩ := run_mask_ok hupdates.legal (alertField_fits _) h
    obtain ⟨_, _, _, _, _, hbstored⟩ := hupdates.frame
    obtain ⟨_, _, _, _, _, htstored⟩ := hsources.frame
    have hmask : storedMask b.dev.mask = storedMask s.dev.mask := hbstored .mask (by decide)
    have hconfig : t.dev.config = b.dev.config := htstored .config (by decide)
    refine ⟨m, ?_, hsources.legal, ?_, ?_, frame_trans (frame_mono hupdates.frame (by decide))
      (frame_mono hsources.frame (by decide)), ?_, hread.trans hmask, quietly_trans hupdates.quiet hsources.quiet,
      fun rest he => ?_⟩
    · rw [hsources.shadow, hupdates.shadow]
      exact commits_eq_applyTo hx s.sh
    · rw [hconfig, hupdates.config]
      exact cfgUnpack_wordAfter_fields hx _
    · rw [← hmask, ← sources_over hx]
      exact hsources.stored
    · rw [htrace, hupdates.trace, List.append_assoc]
      rfl
    · have hsplit : s.env = List.replicate 12 quietDraw ++ (quietDraw :: quietDraw :: rest) := he
      obtain ⟨hm, ht⟩ := hflags rest (hupdates.quiet _ hsplit).1
      rw [hupdates.flags _ hsplit] at hm ht
      exact ⟨hm, by rw [ht, ← storeMask_sources, ← sources_over hx]; rfl⟩

/-- With fourteen successful draws an override or a restore ends. -/
theorem configure_succeeds {x : Saved} {s : State} {ds rest : List Draw} (hx : x.legal) (hl : s.dev.legal)
    (he : s.env = ds ++ rest) (hlength : ds.length = 14) (hok : ∀ d ∈ ds, d.fails = false) :
    ∃ t, configure x s = .ok () t ∧ t.env = rest := by
  have hfirst : (ds.take 12).length = 2 * x.fields.length := by rw [List.length_take, hlength]; rfl
  obtain ⟨d1, d2, hlast⟩ : ∃ d1 d2, ds.drop 12 = [d1, d2] := List.length_eq_two.mp (by rw [List.length_drop, hlength])
  have hds : ds = ds.take 12 ++ [d1, d2] := by rw [← hlast, List.take_append_drop]
  have hmem : d1 ∈ ds ∧ d2 ∈ ds := by
    have hsub := List.drop_subset 12 ds
    rw [hlast] at hsub
    exact ⟨hsub (by simp), hsub (by simp)⟩
  rw [hds, List.append_assoc] at he
  obtain ⟨b, hb, hupdated, _, _⟩ := runUpdates_succeeds hl (fields_fit hx) he hfirst fun d hd => hok d (List.mem_of_mem_take hd)
  have hlegal := (runUpdates_ok hl (fields_fit hx) hb).legal
  obtain ⟨t, ht, _, _, _, _, henv, _⟩ := run_mask_succeeds (u := x.sources) hlegal (alertField_fits _)
    (hupdated.env_eq he) (hok d1 hmem.1) (hok d2 hmem.2)
  exact ⟨t, by rw [configure, hb, bind_ok, ht], henv⟩

end Sys2Proof.Machine
end

section
/-! The loop of WAIT_PEAK pass by pass, whatever the environment does (R204, R205). -/

namespace Sys2Proof.Machine

/-! ### One pass -/

/-- R204, R205: one pass: the wait for an edge, the re-arming read, and after an edge a sample, which joins the window. -/
def loopPass (T : Nat) (s : State) : Res (Option Rat) :=
  (waitEdgeFor (min (autoTimeout s.sh) (s.pause.remaining T)) s.pause).bind fun edge t =>
    (regRead .mask t).bind fun _ u =>
      if edge then (readVolts u).bind fun v x => .ok (some v) (x.pushSample v) else .ok none u

theorem peakLoop_succ (T : Nat) (thr : Rat) (n : Nat) (s : State) :
    peakLoop T thr (n + 1) s =
      if T ≤ s.now - s.p.tStart then .ok false s
      else (loopPass T s).bind fun v t => if v.isSome && isPeak t.p.win thr then .ok true t else peakLoop T thr n t := by
  simp only [peakLoop, loopPass, bind_assoc]
  congr 3
  funext edge t
  congr 1
  funext _ u
  cases edge with
  | false => rfl
  | true => simp only [if_true, bind_assoc, bind_ok, Option.isSome_some, Bool.true_and]

theorem peakLoop_of_expired {T : Nat} {s : State} (h : T ≤ s.now - s.p.tStart) (thr : Rat) (n : Nat) :
    peakLoop T thr n s = .ok false s := by
  cases n with
  | zero => rfl
  | succ n => rw [peakLoop_succ, if_pos h]

theorem ReadClosed.loopPass {R : State → State → Prop} (h : ReadClosed R) (hw : ∀ s v, R s (s.pushSample v)) (T : Nat)
    (s : State) : R s (loopPass T s).state := by
  refine h.trans (h.pause s) (h.bind (h.waitEdgeFor _ _) fun edge t _ => h.bind (h.read t _) fun _ u _ => ?_)
  split
  · exact h.bind (h.readVolts u) fun v x _ => hw x v
  · exact h.refl u

theorem regRead_ok_trace {r : DevReg} {v : Word} {s t : State} (h : regRead r s = .ok v t) :
    t.trace = s.trace ++ [.read r.addr v] := by
  obtain ⟨_, _, rfl⟩ := regRead_ok s h
  simp [State.atAccess, State.drop]

theorem regRead_err_trace {r : DevReg} {e : OpError} {s t : State} (h : regRead r s = .err e t) :
    t.trace = s.trace ++ [.readFailed r.addr] ∧ e = .transport r.addr false := by
  obtain ⟨_, rfl, rfl⟩ := regRead_err s h
  exact ⟨by simp [State.atAccess, State.drop], rfl⟩

/-- R205: with an alert pin a pass gets to its re-arming read, and nothing has been logged or sampled before it. -/
theorem loopPass_waits (T : Nat) {s : State} (hpin : s.session.alertPin = true) :
    ∃ (edge : Bool) (t : State), t.trace = s.trace ∧ t.p = s.p ∧ t.session = s.session ∧
      loopPass T s = (regRead .mask t).bind fun _ u =>
        if edge then (readVolts u).bind fun v x => .ok (some v) (x.pushSample v) else .ok none u := by
  obtain ⟨t, edge, ht, hwaited⟩ :=
    waitEdgeFor_waited (min (autoTimeout s.sh) (s.pause.remaining T)) (s := s.pause) hpin
  obtain ⟨_, _, htrace, hp, hsession, _⟩ := hwaited.kept
  exact ⟨edge, t, htrace, hp, hsession, by rw [loopPass, ht, bind_ok]⟩

/-- What a pass that ended with the sample `v` read, and what it did to the window. -/
def PassRead (s t : State) (v : Option Rat) : Prop :=
  ∃ w, (v = none ∧ t.trace = s.trace ++ passTrace (w, none) ∧ t.p.win = s.p.win) ∨
    ∃ raw, v = some (rawToVolts s.session raw) ∧ t.trace = s.trace ++ passTrace (w, some raw) ∧
      t.p.win = lastThree (s.p.win ++ [rawToVolts s.session raw])

theorem loopPass_ok {T : Nat} {s t : State} {v : Option Rat} (hpin : s.session.alertPin = true)
    (h : loopPass T s = .ok v t) : PassRead s t v := by
  obtain ⟨edge, a, hatrace, hap, hasession, hpass⟩ := loopPass_waits T hpin
  rw [hpass] at h
  cases hmask : regRead .mask a with
  | err e b => rw [hmask] at h; cases h
  | ok w b =>
    rw [hmask, bind_ok] at h
    have hbtrace := regRead_ok_trace hmask
    have hbkept := regRead_accessOnly a .mask
    rw [hmask] at hbkept
    obtain ⟨hbsession, _, _, _, hbp, _⟩ := hbkept
    refine ⟨w, ?_⟩
    cases edge with
    | false =>
      cases h
      exact .inl ⟨rfl, hbtrace.trans (by rw [hatrace]; rfl), congrArg PeakRegs.win (hbp.trans hap)⟩
    | true =>
      unfold readVolts at h
      cases hvolts : regRead .busVoltage b with
      | err e c => rw [hvolts] at h; cases h
      | ok raw c =>
        rw [hvolts] at h
        cases h
        have hctrace := regRead_ok_trace hvolts
        have hckept := regRead_accessOnly b .busVoltage
        rw [hvolts] at hckept
        obtain ⟨hcsession, _, _, _, hcp, _⟩ := hckept
        have hsession : c.session = s.session := hcsession.trans (hbsession.trans hasession)
        have hp : c.p = s.p := hcp.trans (hbp.trans hap)
        refine .inr ⟨raw, by rw [hsession], ?_, ?_⟩
        · show c.trace = _
          rw [hctrace, hbtrace, hatrace, List.append_assoc]
          rfl
        · show lastThree (c.p.win ++ [rawToVolts c.session raw]) = _
          rw [hp, hsession]

/-- R204, R72: a pass raises an error only where a read failed, and that is its last transaction. -/
def PassFailed (s t : State) (e : OpError) : Prop :=
  ∃ reads a, t.trace = s.trace ++ reads ++ [.readFailed a] ∧ (∀ y ∈ reads, ∃ b w, y = .read b w) ∧ e = .transport a false

theorem loopPass_err {T : Nat} {s t : State} {e : OpError} (hpin : s.session.alertPin = true)
    (h : loopPass T s = .err e t) : PassFailed s t e := by
  obtain ⟨edge, a, hatrace, _, _, hpass⟩ := loopPass_waits T hpin
  rw [hpass] at h
  cases hmask : regRead .mask a with
  | err e' b =>
    rw [hmask] at h
    cases h
    obtain ⟨hbtrace, he⟩ := regRead_err_trace hmask
    exact ⟨[], _, by rw [hbtrace, hatrace, List.append_nil], by simp, he⟩
  | ok w b =>
    rw [hmask, bind_ok] at h
    have hbtrace := regRead_ok_trace hmask
    cases edge with
    | false => cases h
    | true =>
      unfold readVolts at h
      cases hvolts : regRead .busVoltage b with
      | ok raw c => rw [hvolts] at h; cases h
      | err e' c =>
        rw [hvolts] at h
        cases h
        obtain ⟨hctrace, he⟩ := regRead_err_trace hvolts
        exact ⟨[.read 0x06 w], _, by rw [hctrace, hbtrace, hatrace]; rfl, by simp, he⟩

/-- The passes before the one that failed made reads only. -/
theorem passFailed_after {s a t : State} {v : Option Rat} {e : OpError} (h : PassRead s a v) (g : PassFailed a t e) :
    PassFailed s t e := by
  obtain ⟨reads, b, htrace, hreads, he⟩ := g
  obtain ⟨w, ⟨_, hatrace, _⟩ | ⟨raw, _, hatrace, _⟩⟩ := h
  · exact ⟨.read 0x06 w :: reads, b, by rw [htrace, hatrace]; simp [passTrace],
      List.forall_mem_cons.mpr ⟨⟨_, _, rfl⟩, hreads⟩, he⟩
  · exact ⟨.read 0x06 w :: .read 0x02 raw :: reads, b, by rw [htrace, hatrace]; simp [passTrace],
      List.forall_mem_cons.mpr ⟨⟨_, _, rfl⟩, List.forall_mem_cons.mpr ⟨⟨_, _, rfl⟩, hreads⟩⟩, he⟩

/-! ### The window -/

/-- R205: the newest three of a list do not depend on what stood before the newest three of its beginning. -/
theorem lastThree_append (l k : List Rat) : lastThree (lastThree l ++ k) = lastThree (l ++ k) := by
  have hbegin : (l.take (l.length - 3)).length = l.length - 3 := by rw [List.length_take]; omega
  have hnew : (l ++ k).length - 3 = (l.take (l.length - 3)).length + ((lastThree l ++ k).length - 3) := by
    simp only [lastThree, hbegin, List.length_append, List.length_drop]
    omega
  have hsplit : l ++ k = l.take (l.length - 3) ++ (lastThree l ++ k) := by
    rw [← List.append_assoc, lastThree, List.take_append_drop]
  show (lastThree l ++ k).drop ((lastThree l ++ k).length - 3) = (l ++ k).drop ((l ++ k).length - 3)
  rw [hnew, hsplit, List.drop_length_add_append]

/-- The window after the samples `raws`. -/
def windowOf (x : Session) (raws : List Word) : List Rat := lastThree (raws.map (rawToVolts x))

theorem windowOf_append (x : Session) (raws : List Word) (raw : Word) :
    lastThree (windowOf x raws ++ [rawToVolts x raw]) = windowOf x (raws ++ [raw]) := by
  rw [windowOf, lastThree_append, windowOf, List.map_append, List.map_singleton]

/-- R201, R205: the statements' peak test is the test of the window. -/
theorem endsInPeak_eq (x : Session) (thr : Rat) (raws : List Word) : endsInPeak x thr raws = isPeak (windowOf x raws) thr := by
  rw [windowOf, lastThree, List.length_map, ← List.map_drop]
  rfl

/-! ### The passes -/

/-- No beginning of the samples `raws`, taken after the samples `before`, is a peak. -/
def noEarlierPeak (x : Session) (thr : Rat) (before raws : List Word) : Prop :=
  ∀ earlier later, earlier ++ later = raws → later ≠ [] → endsInPeak x thr (before ++ earlier) = false

theorem noEarlierPeak_nil (x : Session) (thr : Rat) (before : List Word) : noEarlierPeak x thr before [] := by
  intro earlier later h hlater
  exact absurd (List.append_eq_nil_iff.mp h).2 hlater

theorem noEarlierPeak_cons {x : Session} {thr : Rat} {before raws : List Word} {raw : Word}
    (hbefore : endsInPeak x thr before = false) (h : noEarlierPeak x thr (before ++ [raw]) raws) :
    noEarlierPeak x thr before (raw :: raws) := by
  intro earlier later heq hlater
  cases earlier with
  | nil => rw [List.append_nil, hbefore]
  | cons y earlier =>
    obtain ⟨rfl, hrest⟩ := List.cons_eq_cons.mp heq
    rw [List.append_cons]
    exact h earlier later hrest hlater

/-- From `s` to `t` the loop made passes, each one read of Mask/Enable and at most one sample, and answered `found`: whether
the newest three samples, with the samples `before` taken earlier, are a peak. No three before them were. -/
def LoopEnded (thr : Rat) (before : List Word) (s t : State) (found : Bool) : Prop :=
  ∃ passes : List (Word × Option Word), t.trace = s.trace ++ passes.flatMap passTrace ∧
    found = endsInPeak s.session thr (before ++ passes.filterMap Prod.snd) ∧
    noEarlierPeak s.session thr before (passes.filterMap Prod.snd)

section
variable {thr : Rat} {before : List Word} {s a t : State} {found : Bool} {w raw : Word}

theorem loopEnded_stop (h : endsInPeak s.session thr before = false) : LoopEnded thr before s s false :=
  ⟨[], (List.append_nil _).symm, by rw [List.filterMap_nil, List.append_nil, h], noEarlierPeak_nil _ _ _⟩

/-- A pass without a sample before the others. -/
theorem loopEnded_silent (hsession : a.session = s.session) (htrace : a.trace = s.trace ++ passTrace (w, none))
    (h : LoopEnded thr before a t found) : LoopEnded thr before s t found := by
  obtain ⟨passes, hpasses, hfound, hearlier⟩ := h
  rw [hsession] at hfound hearlier
  refine ⟨(w, none) :: passes, ?_, hfound, hearlier⟩
  rw [hpasses, htrace, List.append_assoc, List.flatMap_cons]

/-- A pass with a sample before the others. -/
theorem loopEnded_sample (hbefore : endsInPeak s.session thr before = false) (hsession : a.session = s.session)
    (htrace : a.trace = s.trace ++ passTrace (w, some raw)) (h : LoopEnded thr (before ++ [raw]) a t found) :
    LoopEnded thr before s t found := by
  obtain ⟨passes, hpasses, hfound, hearlier⟩ := h
  rw [hsession] at hfound hearlier
  refine ⟨(w, some raw) :: passes, ?_, ?_, noEarlierPeak_cons hbefore hearlier⟩
  · rw [hpasses, htrace, List.append_assoc, List.flatMap_cons]
  · rw [hfound, List.append_assoc]
    rfl

/-- A pass whose sample makes a peak is the last. -/
theorem loopEnded_peak (hbefore : endsInPeak s.session thr before = false)
    (htrace : t.trace = s.trace ++ passTrace (w, some raw)) (h : endsInPeak s.session thr (before ++ [raw]) = true) :
    LoopEnded thr before s t true :=
  ⟨[(w, some raw)], by rw [htrace, List.flatMap_singleton], h.symm, noEarlierPeak_cons hbefore (noEarlierPeak_nil _ _ _)⟩

end

theorem loopPass_session (T : Nat) (s : State) : (loopPass T s).state.session = s.session := by
  obtain ⟨⟨hsession, _⟩, _⟩ := keepsIdentity_closed.toReadClosed.loopPass (fun u _ => keepsIdentity_refl u) T s
  exact hsession

/-- R204, R205: how a loop ends that raises no error. -/
theorem peakLoop_ok {T : Nat} {thr : Rat} {n : Nat} {s t : State} {found : Bool} {before : List Word}
    (hpin : s.session.alertPin = true) (hwin : s.p.win = windowOf s.session before)
    (hbefore : endsInPeak s.session thr before = false) (h : peakLoop T thr n s = .ok found t) :
    LoopEnded thr before s t found := by
  induction n generalizing s before with
  | zero => cases h; exact loopEnded_stop hbefore
  | succ n ih =>
    rw [peakLoop_succ] at h
    split at h
    · cases h; exact loopEnded_stop hbefore
    · have hsession := loopPass_session T s
      cases hpass : loopPass T s with
      | err e a => rw [hpass] at h; cases h
      | ok v a =>
        rw [hpass] at h hsession
        rw [bind_ok] at h
        replace hsession : a.session = s.session := hsession
        obtain ⟨w, ⟨rfl, htrace, hawin⟩ | ⟨raw, rfl, htrace, hawin⟩⟩ := loopPass_ok hpin hpass
        · exact loopEnded_silent hsession htrace
            (ih (by rwa [hsession]) (by rw [hawin, hwin, hsession]) (by rwa [hsession]) h)
        · rw [hwin, windowOf_append] at hawin
          rw [hawin, Option.isSome_some, Bool.true_and, ← endsInPeak_eq] at h
          cases hpeak : endsInPeak s.session thr (before ++ [raw]) with
          | true =>
            rw [hpeak] at h
            cases h
            exact loopEnded_peak hbefore htrace hpeak
          | false =>
            rw [hpeak] at h
            exact loopEnded_sample hbefore hsession htrace
              (ih (by rwa [hsession]) (by rw [hawin, hsession]) (by rwa [hsession]) h)

/-- R204, R247: a loop raises an error only where a read failed. -/
theorem peakLoop_err {T : Nat} {thr : Rat} {n : Nat} {s t : State} {e : OpError} (hpin : s.session.alertPin = true)
    (h : peakLoop T thr n s = .err e t) : PassFailed s t e := by
  induction n generalizing s with
  | zero => cases h
  | succ n ih =>
    rw [peakLoop_succ] at h
    split at h
    · cases h
    · have hsession := loopPass_session T s
      cases hpass : loopPass T s with
      | err e' a =>
        rw [hpass] at h
        cases h
        exact loopPass_err hpin hpass
      | ok v a =>
        rw [hpass] at h hsession
        rw [bind_ok] at h
        split at h
        · cases h
        · have hapin : a.session.alertPin = true := by
            rw [show a.session = s.session from hsession, hpin]
          exact passFailed_after (loopPass_ok hpin hpass) (ih hapin h)

end Sys2Proof.Machine
end

section
/-! WAIT_PEAK as override, loop and restore, and what it leaves when no transaction failed (R202, R203, R205). -/

namespace Sys2Proof.Machine

/-- R205: the settings that WAIT_PEAK records when it starts. -/
def State.settings (s : State) : Saved := s.startPeak.p.saved

/-- R205: override, loop and restore. -/
def peakRun (T : Nat) (thr : Rat) (s : State) : Res Bool :=
  (configure overrideSettings s.startPeak).bind fun _ a =>
    (peakLoop T thr (T + a.env.length + 1) a).bind fun found b =>
      (configure s.settings b).bind fun _ t => .ok found t

theorem settings_legal {s : State} (hs : s.sh.legal) : s.settings.legal := hs

/-- R30: the loop leaves the record of the caller's settings. -/
theorem peakLoop_saved {T n : Nat} {thr : Rat} {a b : State} {found : Bool} (h : peakLoop T thr n a = .ok found b) :
    b.p.saved = a.p.saved := by
  have hkept := saved_readClosed.peakLoop (fun _ _ => rfl) T thr n a
  rwa [h] at hkept

theorem waitPeakFor_eq_peakRun (T : Nat) (thr : Rat) {s : State} (hs : s.legal) (hpin : s.session.alertPin = true) :
    waitPeakFor T thr s =
      (peakRun T thr s).bind fun found t => if found then .ok .success t else .err .timeout t := by
  obtain ⟨_, hsh, hdev⟩ := hs
  rw [waitPeakFor, if_pos hpin, peakOverride_eq_configure, peakRun]
  cases hoverride : configure overrideSettings s.startPeak with
  | err e a => rfl
  | ok u a =>
    obtain ⟨m, hdone⟩ := configure_ok overrideSettings_legal (s := s.startPeak) hdev hoverride
    obtain ⟨_, _, _, hp, _⟩ := hdone.frame
    rw [bind_ok, bind_ok]
    cases hloop : peakLoop T thr (T + a.env.length + 1) a with
    | err e b => rfl
    | ok found b =>
      have hsaved : b.p.saved = s.settings := (peakLoop_saved hloop).trans (congrArg PeakRegs.saved hp)
      rw [bind_ok, bind_ok, hsaved, peakRestore_eq_configure (settings_legal hsh), bind_assoc]
      rfl

/-! ### The run that ended -/

/-- The override took `s` to `a`, the loop `a` to `b`, the restore `b` to `t`. -/
structure PeakRun (T : Nat) (thr : Rat) (found : Bool) (s a b t : State) : Prop where
  override : configure overrideSettings s.startPeak = .ok () a
  loop : peakLoop T thr (T + a.env.length + 1) a = .ok found b
  restore : configure s.settings b = .ok () t

theorem peakRun_of_parts {T : Nat} {thr : Rat} {found : Bool} {s a b t : State} (h : PeakRun T thr found s a b t) :
    peakRun T thr s = .ok found t := by
  rw [peakRun, h.override, bind_ok, h.loop, bind_ok, h.restore, bind_ok]

theorem peakRun_ok {T : Nat} {thr : Rat} {found : Bool} {s t : State} (h : peakRun T thr s = .ok found t) :
    ∃ a b, PeakRun T thr found s a b t := by
  unfold peakRun at h
  cases hoverride : configure overrideSettings s.startPeak with
  | err e a => rw [hoverride] at h; cases h
  | ok u a =>
    rw [hoverride, bind_ok] at h
    cases hloop : peakLoop T thr (T + a.env.length + 1) a with
    | err e b => rw [hloop] at h; cases h
    | ok f b =>
      rw [hloop, bind_ok] at h
      cases hrestore : configure s.settings b with
      | err e c => rw [hrestore] at h; cases h
      | ok v c =>
        rw [hrestore] at h
        cases h
        exact ⟨a, b, hoverride, hloop, hrestore⟩

/-- The answer of a run that ended: success, or TimeoutError. -/
def peakAnswer (found : Bool) (t : State) : State := if found then t.answer .success else t.raise .timeout

theorem peakAnswer_resp (found : Bool) (t : State) :
    (peakAnswer found t).resp = if found then .done .success else .failed .timeout := by cases found <;> rfl

/-- Answering touches the response and, where it raises the error, `fsm`. -/
theorem peakAnswer_kept (found : Bool) (t : State) :
    (peakAnswer found t).sh = t.sh ∧ (peakAnswer found t).dev = t.dev ∧ (peakAnswer found t).trace = t.trace ∧
      (peakAnswer found t).env = t.env ∧ (peakAnswer found t).now = t.now := by
  cases found <;> exact ⟨rfl, rfl, rfl, rfl, rfl⟩

/-- R194: the timeout of WAIT_PEAK. -/
def peakTimeout (a : Bool) (s : State) : Nat := if a then 100000 else s.opt

theorem exec_waitPeak_eq (a : Bool) (s : State) :
    exec (.waitPeak a) s = complete (waitPeakFor (peakTimeout a s) s.opq s) := rfl

theorem exec_waitPeak_of_ok {a found : Bool} {s t : State} (hs : s.legal) (hpin : s.session.alertPin = true)
    (h : peakRun (peakTimeout a s) s.opq s = .ok found t) : exec (.waitPeak a) s = .next (peakAnswer found t) := by
  rw [exec_waitPeak_eq, waitPeakFor_eq_peakRun _ _ hs hpin, h]
  cases found <;> rfl

theorem exec_waitPeak_of_err {a : Bool} {e : OpError} {s t : State} (hs : s.legal) (hpin : s.session.alertPin = true)
    (h : peakRun (peakTimeout a s) s.opq s = .err e t) : exec (.waitPeak a) s = .next (t.raise e) := by
  rw [exec_waitPeak_eq, waitPeakFor_eq_peakRun _ _ hs hpin, h]
  rfl

/-! ### What a run that ended leaves -/

/-- R80: a packed word has Configuration's fixed bits. -/
theorem cfgPack_legal {avg vct ict : Nat} (havg : avg ∈ Config.avgTable) (hv : vct ∈ Config.ctTable)
    (hi : ict ∈ Config.ctTable) (c v m : Bool) : cfgPack avg vct ict c v m &&& 0xF000 = configFixed := by
  have bit : ∀ b : Bool, ∀ k ≤ 2, bitValue b k &&& 0xF000 = 0 := by decide
  rw [cfgPack, BitVec.and_or_distrib_right, BitVec.and_or_distrib_right, BitVec.and_or_distrib_right,
    BitVec.and_or_distrib_right, BitVec.and_or_distrib_right, BitVec.and_or_distrib_right,
    indexField_low (by decide) avgTable_length (List.getElem?_idxOf havg) (by decide),
    indexField_low (by decide) ctTable_length (List.getElem?_idxOf hv) (by decide),
    indexField_low (by decide) ctTable_length (List.getElem?_idxOf hi) (by decide), bit c 2 (by decide), bit v 1 (by decide),
    bit m 0 (by decide)]
  rfl

/-- R36, R202: the stored bits of Mask/Enable with Conversion Ready the only source. -/
theorem overridden_storedMask (w : Word) :
    mergeBits (storedMask w) 0xFC00 (sourceValue overrideSettings.amask) = (storedMask w &&& 0x0003) ||| 0x0400 := by
  have hbits : storedMask w &&& ~~~0xFC00 = storedMask w &&& 0x0003 := by
    rw [storedMask, BitVec.and_assoc, BitVec.and_assoc]
    rfl
  rw [mergeBits, hbits]
  rfl

/-- Sources written over sources leave no trace of them. -/
theorem mergeBits_sources_twice (w : Word) (m k : BitVec 6) :
    mergeBits (mergeBits w 0xFC00 (sourceValue m)) 0xFC00 (sourceValue k) = mergeBits w 0xFC00 (sourceValue k) := by
  have hgone : ∀ m : BitVec 6, sourceValue m &&& ~~~0xFC00 = 0 := by decide
  rw [mergeBits_mergeBits, hgone, BitVec.or_self]
  exact congrArg (mergeBits w 0xFC00) BitVec.zero_or

/-- What the whole run left, and its transactions before and after the loop. -/
structure PeakDone (s a b t : State) (m m' : Word) : Prop where
  shadow : t.sh = s.sh
  config : t.dev.config = cfgPack s.sh.avg s.sh.vbusct s.sh.ishct s.sh.cont s.sh.mv s.sh.mc
  sources : storedMask t.dev.mask = mergeBits (storedMask s.dev.mask) 0xFC00 (sourceValue s.sh.amask)
  others : ∀ r, r ∉ [DevReg.config, DevReg.mask] → t.dev.stored r = s.dev.stored r
  override : a.trace = s.trace ++ overrideTrace s.dev.config m
  restore : ∃ l, t.trace = b.trace ++ l ∧ isRestoreTrace s.sh m' l
  readFirst : storedMask m = storedMask s.dev.mask
  readLast : storedMask m' = (storedMask s.dev.mask &&& 0x0003) ||| 0x0400

/-- R203: the trace of a restore. -/
theorem settings_trace_isRestoreTrace {s : State} (hs : s.sh.legal) (m : Word) :
    isRestoreTrace s.sh m (s.settings.trace 0x6006 m) := by
  have hlegal := settings_legal hs
  obtain ⟨havg, hv, hi, _⟩ := hs
  exact ⟨_, _, _, List.getElem?_idxOf havg, List.getElem?_idxOf hv, List.getElem?_idxOf hi,
    saved_trace_eq hlegal (List.getElem?_idxOf havg) (List.getElem?_idxOf hv) (List.getElem?_idxOf hi) _ _⟩

section
variable {T : Nat} {thr : Rat} {found : Bool} {s a b t : State}

theorem peakLoop_storesNothing {n : Nat} (h : peakLoop T thr n a = .ok found b) : a.storesNothing b := by
  have hkept := storesNothing_readClosed.peakLoop (fun u _ => storesNothing_refl u) T thr n a
  rwa [h] at hkept

theorem peakLoop_legal {n : Nat} (h : peakLoop T thr n a = .ok found b) (ha : a.dev.legal) : b.dev.legal := by
  have hkept := keepsLegal_closed.toReadClosed.peakLoop (fun u _ => keepsLegal_refl u) T thr n a
  rw [h] at hkept
  exact hkept.2 ha

/-- The override's and the restore's own accounts. -/
theorem PeakRun.configured (h : PeakRun T thr found s a b t) (hs : s.legal) :
    ∃ m m', Configured overrideSettings s.startPeak a m ∧ Configured s.settings b t m' := by
  obtain ⟨_, hsh, hdev⟩ := hs
  obtain ⟨m, hoverride⟩ := configure_ok overrideSettings_legal (s := s.startPeak) hdev h.override
  obtain ⟨m', hrestore⟩ := configure_ok (settings_legal hsh) (peakLoop_legal h.loop hoverride.legal) h.restore
  exact ⟨m, m', hoverride, hrestore⟩

/-- R202, R203: the override and the restore together leave the caller's settings. -/
theorem PeakRun.done (h : PeakRun T thr found s a b t) (hs : s.legal) {m m' : Word}
    (hoverride : Configured overrideSettings s.startPeak a m) (hrestore : Configured s.settings b t m') :
    PeakDone s a b t m m' := by
  obtain ⟨_, hsh, _⟩ := hs
  obtain ⟨hbsh, hbstored⟩ := peakLoop_storesNothing h.loop
  obtain ⟨_, _, _, _, _, hastored⟩ := hoverride.frame
  obtain ⟨_, _, _, _, _, htstored⟩ := hrestore.frame
  have hbmask : storedMask b.dev.mask = storedMask a.dev.mask := hbstored .mask
  have hbconfig : b.dev.config = 0x6006 := (hbstored .config).trans
    (config_eq_of_cfgUnpack hoverride.legal.1 (by decide) (hoverride.config.trans (by decide)))
  have htrace := hrestore.trace
  rw [hbconfig] at htrace
  exact {
    shadow := by rw [hrestore.shadow, hbsh, hoverride.shadow]; rfl
    config := by
      obtain ⟨havg, hv, hi, _⟩ := hsh
      refine config_eq_of_cfgUnpack hrestore.legal.1 (cfgPack_legal havg hv hi _ _ _) (hrestore.config.trans ?_)
      exact (unpackInvertsPack.2 _ _ _ _ _ _ havg hv hi).symm
    sources := by
      rw [hrestore.sources, hbmask, hoverride.sources]
      exact mergeBits_sources_twice _ _ _
    others := fun r hr => (htstored r hr).trans ((hbstored r).trans (hastored r hr))
    override := hoverride.trace.trans
      (congrArg (s.trace ++ ·) (saved_trace_eq overrideSettings_legal (a := 0) (v := 0) (i := 0) rfl rfl rfl _ _))
    restore := ⟨_, htrace, settings_trace_isRestoreTrace hsh m'⟩
    readFirst := hoverride.read
    readLast := by rw [hrestore.read, hbmask, hoverride.sources]; exact overridden_storedMask _ }

end

/-- The source bits after a run are the shadow's. -/
theorem PeakDone.extract {s a b t : State} {m m' : Word} (h : PeakDone s a b t m m') :
    t.dev.mask.extractLsb' 10 6 = s.sh.amask := by
  rw [← extract_storedMask, h.sources, extract_sources]

end Sys2Proof.Machine
end

section
/-! Passes of WAIT_PEAK's loop over draws in which nothing happens but at most one edge and one sample (R204 to R206). -/

namespace Sys2Proof.Machine

/-! ### What such passes leave -/

/-- From `s` to `t` passes of the loop took `dt` microseconds, made the transactions `reads` and the samples `raws`, and left
Mask/Enable as it was. -/
structure Looped (reads : List Txn) (raws : List Word) (dt : Nat) (s t : State) : Prop where
  shadow : t.sh = s.sh
  session : t.session = s.session
  mask : t.dev.mask = s.dev.mask
  start : t.p.tStart = s.p.tStart
  now : t.now = s.now + dt
  window : t.p.win = raws.foldl (fun win raw => lastThree (win ++ [rawToVolts s.session raw])) s.p.win
  trace : t.trace = s.trace ++ reads

theorem Looped.refl (s : State) : Looped [] [] 0 s s := ⟨rfl, rfl, rfl, rfl, rfl, rfl, (List.append_nil _).symm⟩

theorem Looped.trans {l k : List Txn} {xs ys : List Word} {d e : Nat} {a b c : State} (h : Looped l xs d a b)
    (g : Looped k ys e b c) : Looped (l ++ k) (xs ++ ys) (d + e) a c where
  shadow := g.shadow.trans h.shadow
  session := g.session.trans h.session
  mask := g.mask.trans h.mask
  start := g.start.trans h.start
  now := by rw [g.now, h.now, Nat.add_assoc]
  window := by rw [g.window, h.window, h.session, List.foldl_append]
  trace := by rw [g.trace, h.trace, List.append_assoc]

/-! ### One pass -/

/-- R60, R61: Mask/Enable holds no flag that a quiet read clears. -/
abbrev flagsRead (m : Word) : Prop := clearOnRead m quietDraw = m

theorem regRead_mask_quiet {s : State} {rest : List Draw} (he : s.env = quietDraw :: rest) (hm : flagsRead s.dev.mask) :
    ∃ t, regRead .mask s = .ok s.dev.mask t ∧ t.env = rest ∧ t.p = s.p ∧ Looped [.read 0x06 s.dev.mask] [] 0 s t := by
  obtain ⟨t, ht, ha, henv, hdev, htrace⟩ := regRead_succeeds s .mask he rfl
  have hnow := regRead_now .mask s
  rw [ht, nextDraw_of_env s he] at hnow
  have hold : (s.dev.evolve quietDraw).get .mask = s.dev.mask := ownFlags_quiet _ quietDraw_flagsQuiet
  rw [hold] at ht htrace
  obtain ⟨hsession, hsh, _, _, hp, _⟩ := ha
  refine ⟨t, ht, henv, hp, hsh, hsession, ?_, congrArg _ hp, hnow, congrArg _ hp, htrace⟩
  rw [hdev, afterRead_mask, if_pos rfl, evolve_mask, ownFlags_quiet _ quietDraw_flagsQuiet]
  exact hm

/-- R170: a sample whose draw holds `raw` and nothing else. -/
theorem readVolts_quiet {s : State} {raw : Word} {rest : List Draw} (he : s.env = { busVoltage := raw } :: rest) :
    ∃ t, readVolts s = .ok (rawToVolts s.session raw) t ∧ t.env = rest ∧ t.p = s.p ∧
      Looped [.read 0x02 raw] [] 0 s t := by
  obtain ⟨t, ht, ha, henv, hdev, htrace⟩ := regRead_succeeds s .busVoltage he rfl
  have hnow := regRead_now .busVoltage s
  rw [ht, nextDraw_of_env s he] at hnow
  obtain ⟨hsession, hsh, _, _, hp, _⟩ := ha
  refine ⟨t, ?_, henv, hp, hsh, hsession, ?_, congrArg _ hp, hnow, congrArg _ hp, htrace⟩
  · rw [readVolts, ht, bind_ok, hsession]
    rfl
  · rw [hdev, afterRead_mask, if_neg nofun]
    exact ownFlags_quiet _ (d := { busVoltage := raw }) ⟨rfl, rfl, rfl⟩

/-- R205: the inner wait lasts no longer than the automatic timeout and what is left of WAIT_PEAK's own. -/
def State.innerTimeout (s : State) (T : Nat) : Nat := min (autoTimeout s.sh) (T - (s.now - s.p.tStart))

/-- R204: a pass over two quiet gaps, an armed wait with the draw `d`, and a quiet re-arming read: it waits as the trace form
says, and samples after an edge. -/
theorem loopPass_reads {s : State} {T : Nat} {d : Draw} {rest : List Draw} (hpin : s.session.alertPin = true)
    (he : s.env = quietDraw :: quietDraw :: d :: quietDraw :: rest) (hm : flagsRead s.dev.mask) {edge : Bool} {dt : Nat}
    (ho : edgeOutcome (firstFall s.alertN 0 d.events) (s.innerTimeout T) d.tie = (edge, dt)) :
    ∃ u, u.env = rest ∧ u.p = s.p ∧ Looped [.read 0x06 s.dev.mask] [] dt s u ∧
      loopPass T s = if edge then (readVolts u).bind fun v x => .ok (some v) (x.pushSample v) else .ok none u := by
  have hfirst : s.pause = s.withEnv (quietDraw :: d :: quietDraw :: rest) s.tick := pause_of_quiet s he rfl
  have hsecond : s.pause.pause = s.pause.withEnv (d :: quietDraw :: rest) s.tick := by
    rw [pause_of_quiet s.pause (by rw [hfirst]; rfl) rfl, hfirst]
    rfl
  have hinner : min (autoTimeout s.sh) (s.pause.remaining T) = s.innerTimeout T := by rw [hfirst]; rfl
  have hhere : s.pause.pause.now = s.now ∧ s.pause.pause.alertN = s.alertN ∧ s.pause.pause.nextDraw = d ∧
      s.pause.pause.drop.env = quietDraw :: rest := by
    rw [hsecond, hfirst]
    exact ⟨rfl, rfl, rfl, rfl⟩
  obtain ⟨hnow, halert, hdraw, henv⟩ := hhere
  obtain ⟨a, b, ha, hwaited⟩ := waitEdgeFor_waited (s.innerTimeout T) (s := s.pause) hpin
  rw [hdraw] at hwaited
  obtain ⟨hash, hadev, hatrace, hap, hasession, _⟩ := hwaited.kept
  have hb := hwaited.outcome
  have hanow := hwaited.now
  rw [halert, ho] at hb hanow
  obtain rfl : b = edge := hb
  have hwait : Looped [] [] dt s a := ⟨hash, hasession, congrArg Device.mask hadev, congrArg PeakRegs.tStart hap,
    hanow.trans (congrArg (· + dt) hnow), congrArg PeakRegs.win hap, hatrace.trans (List.append_nil _).symm⟩
  have hamask : a.dev.mask = s.dev.mask := hwait.mask
  obtain ⟨u, hu, huenv, hup, hread⟩ := regRead_mask_quiet (hwaited.script.trans henv) (by rwa [hamask])
  rw [hamask] at hread
  refine ⟨u, huenv, hup.trans hap, hwait.trans hread, ?_⟩
  rw [loopPass, hinner, ha, bind_ok, hu, bind_ok]

/-- R204: a pass without an edge takes the whole inner wait and no sample. -/
theorem loopPass_silent {s : State} {T : Nat} {rest : List Draw} (hpin : s.session.alertPin = true)
    (he : s.env = silentPasses 1 ++ rest) (hm : flagsRead s.dev.mask) :
    ∃ t, loopPass T s = .ok none t ∧ t.env = rest ∧ Looped [.read 0x06 s.dev.mask] [] (s.innerTimeout T) s t := by
  obtain ⟨t, henv, _, hlooped, hpass⟩ := loopPass_reads (T := T) hpin he hm rfl
  exact ⟨t, hpass, henv, hlooped⟩

/-- R195: the line that is high and then falls after `k` microseconds. -/
theorem firstFall_peakPass (b : Bool) (k : Nat) : firstFall b 0 [.line true, .time k, .line false] = some k := by
  simp [firstFall]

/-- R204: a pass with an edge within its inner wait takes one sample. -/
theorem loopPass_peak {s : State} {T k : Nat} {raw : Word} {rest : List Draw} (hpin : s.session.alertPin = true)
    (he : s.env = peakPass k raw ++ rest) (hk : k < s.innerTimeout T) (hm : flagsRead s.dev.mask) :
    ∃ t, loopPass T s = .ok (some (rawToVolts s.session raw)) t ∧ t.env = rest ∧
      Looped [.read 0x06 s.dev.mask, .read 0x02 raw] [raw] k s t := by
  have ho : edgeOutcome (firstFall s.alertN 0 [.line true, .time k, .line false]) (s.innerTimeout T) false = (true, k) := by
    rw [firstFall_peakPass, edgeOutcome_of_lt hk]
  obtain ⟨u, huenv, _, hread, hpass⟩ := loopPass_reads (T := T) hpin he hm ho
  obtain ⟨t, ht, htenv, _, hsample⟩ := readVolts_quiet huenv
  rw [if_pos rfl, ht, bind_ok, hread.session] at hpass
  obtain ⟨hsh, hsession, hmask, hstart, hnow, hwin, htrace⟩ := hread.trans hsample
  refine ⟨_, hpass, htenv, hsh, hsession, hmask, hstart, hnow, ?_, htrace⟩
  show lastThree (t.p.win ++ [rawToVolts s.session raw]) = _
  rw [hwin]
  rfl

/-! ### Several passes -/

/-- R205, R206: passes without an edge, of a millisecond each or of what is left of the timeout. -/
theorem peakLoop_silent {T e : Nat} {s : State} {rest : List Draw} (thr : Rat) (n : Nat) (hpin : s.session.alertPin = true)
    (hauto : autoTimeout s.sh = 1000) (hstart : s.p.tStart ≤ s.now) (he : s.env = silentPasses e ++ rest)
    (hm : flagsRead s.dev.mask) (htime : e = 0 ∨ s.now - s.p.tStart + 1000 * (e - 1) < T) :
    ∃ t, peakLoop T thr (e + n) s = peakLoop T thr n t ∧ t.env = rest ∧
      Looped (List.replicate e (.read 0x06 s.dev.mask)) [] (min (1000 * e) (T - (s.now - s.p.tStart))) s t := by
  induction e generalizing s with
  | zero =>
    refine ⟨s, by rw [Nat.zero_add], he, ?_⟩
    rw [Nat.mul_zero, Nat.zero_min]
    exact Looped.refl s
  | succ e ih =>
    have hleft : s.now - s.p.tStart + 1000 * e < T := htime.resolve_left (Nat.succ_ne_zero e)
    have hsplit : s.env = silentPasses 1 ++ (silentPasses e ++ rest) := by
      rw [he, ← List.append_assoc, silentPasses, silentPasses, silentPasses, ← List.replicate_add]
      congr 2
      omega
    have hinner : s.innerTimeout T = min 1000 (T - (s.now - s.p.tStart)) := by rw [State.innerTimeout, hauto]
    obtain ⟨a, ha, haenv, hfirst⟩ := loopPass_silent (T := T) hpin hsplit hm
    rw [hinner] at hfirst
    have hanow := hfirst.now
    obtain ⟨t, ht, htenv, hothers⟩ := ih (s := a) (by rwa [hfirst.session]) (by rwa [hfirst.shadow])
      (by rw [hfirst.start]; omega) haenv (by rwa [hfirst.mask])
      (e.eq_zero_or_pos.imp_right fun hpos => by rw [hfirst.start]; omega)
    refine ⟨t, ?_, htenv, ?_⟩
    · rw [Nat.add_right_comm, peakLoop_succ, if_neg (by omega), ha]
      exact ht
    · have htotal : min 1000 (T - (s.now - s.p.tStart)) + min (1000 * e) (T - (a.now - s.p.tStart)) =
          min (1000 * (e + 1)) (T - (s.now - s.p.tStart)) := by omega
      have hall := hfirst.trans hothers
      rw [hfirst.mask, hfirst.start, htotal] at hall
      exact hall

/-- R204, R205: passes without an edge of a millisecond each, and then one with an edge and a sample. -/
theorem peakLoop_sample {T e k : Nat} {raw : Word} {s : State} {rest : List Draw} (thr : Rat) (n : Nat)
    (hpin : s.session.alertPin = true) (hauto : autoTimeout s.sh = 1000) (hstart : s.p.tStart ≤ s.now)
    (he : s.env = silentPasses e ++ peakPass k raw ++ rest) (hm : flagsRead s.dev.mask) (hk : k < 1000)
    (htime : s.now - s.p.tStart + (1000 * e + k) < T) :
    ∃ t, peakLoop T thr (e + (n + 1)) s = (if isPeak t.p.win thr then .ok true t else peakLoop T thr n t) ∧ t.env = rest ∧
      Looped (List.replicate e (.read 0x06 s.dev.mask) ++ [.read 0x06 s.dev.mask, .read 0x02 raw]) [raw] (1000 * e + k)
        s t := by
  rw [List.append_assoc] at he
  obtain ⟨a, ha, haenv, hsilent⟩ := peakLoop_silent (T := T) (e := e) thr (n + 1) hpin hauto hstart he hm (.inr (by omega))
  rw [Nat.min_eq_left (by omega)] at hsilent
  have hanow := hsilent.now
  have hinner : k < a.innerTimeout T := by
    rw [State.innerTimeout, hsilent.shadow, hauto, hsilent.start]
    omega
  obtain ⟨t, ht, htenv, hpeak⟩ := loopPass_peak (by rwa [hsilent.session]) haenv hinner (by rwa [hsilent.mask])
  refine ⟨t, ?_, htenv, ?_⟩
  · rw [ha, peakLoop_succ, if_neg (by rw [hsilent.start]; omega), ht, bind_ok]
    rfl
  · have hall := hsilent.trans hpeak
    rwa [hsilent.mask] at hall

end Sys2Proof.Machine
end

section
/-! WAIT_PEAK over scripts that are known: it finds a peak (R201 to R205), or times out (R205, R206). -/

namespace Sys2Proof.Machine

/-! ### After the override -/

/-- R190, R202: under the override the automatic timeout is the floor. -/
theorem autoTimeout_override (sh : Shadow) : autoTimeout (overrideSettings.applyTo sh) = 1000 := rfl

/-- R202: Mask/Enable after a quiet override: Conversion Ready the only source, APOL, LEN and OVF as they were. -/
theorem overridden_mask_flagsRead (w : Word) : flagsRead ((w &&& 0x0007) ||| 0x0400) := by
  have hbits : ∀ i < 16, (i = 3 ∨ i = 4) → (0x0007 : Word).getLsbD i = false ∧ (0x0400 : Word).getLsbD i = false := by decide
  refine BitVec.eq_of_getLsbD_eq fun i hi => ?_
  have hclear := hbits i hi
  rw [clearOnRead_quiet _ hi, BitVec.getLsbD_or, BitVec.getLsbD_and]
  grind

/-- What a quiet override leaves to the loop. -/
structure Overridden (s a : State) (rest : List Draw) : Prop where
  env : a.env = rest
  now : a.now = s.now
  mask : a.dev.mask = (s.dev.mask &&& 0x0007) ||| 0x0400
  auto : autoTimeout a.sh = 1000
  session : a.session = s.session
  peak : a.p = s.startPeak.p

theorem overridden_of_configured {s a : State} {m : Word} {rest : List Draw} (h : Configured overrideSettings s.startPeak a m)
    (he : s.env = List.replicate 14 quietDraw ++ rest) : Overridden s a rest ∧ m = s.dev.mask := by
  obtain ⟨henv, hnow⟩ := h.quiet rest he
  obtain ⟨hm, hmask⟩ := h.flags rest he
  obtain ⟨⟨hsession, _⟩, _, _, hp, _⟩ := h.frame
  exact ⟨⟨henv, hnow, hmask, by rw [h.shadow]; exact autoTimeout_override _, hsession, hp⟩, hm⟩

theorem configure_quiet {x : Saved} {s : State} {rest : List Draw} (hx : x.legal) (hl : s.dev.legal)
    (he : s.env = List.replicate 14 quietDraw ++ rest) : ∃ t, configure x s = .ok () t := by
  obtain ⟨t, ht, _⟩ := configure_succeeds hx hl he rfl fun d hd => by rw [List.eq_of_mem_replicate hd]; rfl
  exact ⟨t, ht⟩

/-! ### A quiet override, a loop, and a quiet restore -/

/-- What the statements say of the end of a WAIT_PEAK, whatever its loop did: the shadow and the device hold the caller's
settings again. -/
def CallerRestored (s t : State) : Prop :=
  t.sh = s.sh ∧ t.fsm = .idle ∧ sameSession s t ∧
    t.dev.config = cfgPack s.sh.avg s.sh.vbusct s.sh.ishct s.sh.cont s.sh.mv s.sh.mc ∧
    t.dev.mask.extractLsb' 10 6 = s.sh.amask ∧ t.dev.limit = s.dev.limit

theorem callerRestored {arg found : Bool} {s a b t : State} {m m' : Word} (hs : s.legal) (hdone : PeakDone s a b t m m')
    (hexec : exec (.waitPeak arg) s = .next (peakAnswer found t)) : CallerRestored s (peakAnswer found t) := by
  obtain ⟨hsession, _⟩ := keepsIdentity_closed.exec hexec
  obtain ⟨hsh, hdev, _⟩ := peakAnswer_kept found t
  refine ⟨hsh.trans hdone.shadow, exec_fsm_idle hs.1 hexec, hsession, ?_, ?_, ?_⟩ <;> rw [hdev]
  · exact hdone.config
  · exact hdone.extract
  · exact hdone.others .limit (by decide)

/-- R202 to R205: a WAIT_PEAK whose override and restore are quiet, by what its loop does. -/
theorem waitPeak_quiet {arg found : Bool} {s : State} {ds rest : List Draw} {reads : List Txn} {raws : List Word} {dt : Nat}
    (hs : s.legal) (hpin : s.session.alertPin = true)
    (he : s.env = List.replicate 14 quietDraw ++ (ds ++ (List.replicate 14 quietDraw ++ rest)))
    (hloop : ∀ a, Overridden s a (ds ++ (List.replicate 14 quietDraw ++ rest)) →
      ∃ b, peakLoop (peakTimeout arg s) s.opq (peakTimeout arg s + a.env.length + 1) a = .ok found b ∧
        b.env = List.replicate 14 quietDraw ++ rest ∧ Looped reads raws dt a b) :
    ∃ t restore, exec (.waitPeak arg) s = .next t ∧ t.resp = (if found then .done .success else .failed .timeout) ∧
      t.now = s.now + dt ∧ t.env = rest ∧ isRestoreTrace s.sh ((s.dev.mask &&& 0x0007) ||| 0x0400) restore ∧
      t.trace = s.trace ++ overrideTrace s.dev.config s.dev.mask ++ reads ++ restore ∧ CallerRestored s t := by
  have hs' := hs
  obtain ⟨_, hsh, hdev⟩ := hs'
  obtain ⟨a, hoverride⟩ := configure_quiet overrideSettings_legal (s := s.startPeak) hdev he
  obtain ⟨_, hconfigured⟩ := configure_ok overrideSettings_legal (s := s.startPeak) hdev hoverride
  obtain ⟨b, hb, hbenv, hlooped⟩ := hloop a (overridden_of_configured hconfigured he).1
  obtain ⟨t, hrestore⟩ := configure_quiet (settings_legal hsh) (peakLoop_legal hb hconfigured.legal) hbenv
  have hrun : PeakRun _ _ found s a b t := ⟨hoverride, hb, hrestore⟩
  obtain ⟨m, m', hfirst, hlast⟩ := hrun.configured hs
  have hdone := hrun.done hs hfirst hlast
  obtain ⟨⟨_, hanow, hamask, _⟩, rfl⟩ := overridden_of_configured hfirst he
  obtain ⟨htenv, htnow⟩ := hlast.quiet rest hbenv
  obtain ⟨hm', _⟩ := hlast.flags rest hbenv
  obtain rfl : m' = (s.dev.mask &&& 0x0007) ||| 0x0400 := by rw [hm', hlooped.mask, hamask]
  obtain ⟨l, hl, hlrestore⟩ := hdone.restore
  have hexec := exec_waitPeak_of_ok hs hpin (peakRun_of_parts hrun)
  obtain ⟨_, _, htrace, henv, hnow⟩ := peakAnswer_kept found t
  refine ⟨peakAnswer found t, l, hexec, peakAnswer_resp found t, ?_, henv.trans htenv, hlrestore, ?_,
    callerRestored hs hdone hexec⟩
  · rw [hnow, htnow, hlooped.now, hanow]
  · rw [htrace, hl, hlooped.trace, hdone.override]

/-! ### Timing out -/

/-- R205, R206: passes without an edge until the timeout has elapsed. -/
theorem peakLoop_timesOut {T n : Nat} {s a : State} {rest : List Draw} (thr : Rat) (hpin : s.session.alertPin = true)
    (ha : Overridden s a (silentPasses n ++ rest)) (hn : n = T / 1000 + (if T % 1000 = 0 then 0 else 1)) :
    ∃ b, peakLoop T thr (T + a.env.length + 1) a = .ok false b ∧ b.env = rest ∧
      Looped (List.replicate n (.read 0x06 ((s.dev.mask &&& 0x0007) ||| 0x0400))) [] T a b := by
  have hstart : a.p.tStart = a.now := by rw [ha.peak, ha.now]; rfl
  have hpasses : 1000 * n < T + 1000 ∧ T ≤ 1000 * n := by
    split at hn <;> omega
  obtain ⟨k, hk⟩ := Nat.exists_eq_add_of_le (show n ≤ T + a.env.length + 1 by omega)
  obtain ⟨b, hb, hbenv, hlooped⟩ := peakLoop_silent (T := T) thr k (by rwa [ha.session]) ha.auto hstart.le ha.env
    (by rw [ha.mask]; exact overridden_mask_flagsRead _) (by rw [hstart]; omega)
  have htime : min (1000 * n) (T - (a.now - a.p.tStart)) = T := by rw [hstart]; omega
  rw [htime, ha.mask] at hlooped
  refine ⟨b, ?_, hbenv, hlooped⟩
  rw [hk, hb, peakLoop_of_expired]
  rw [hlooped.now, hlooped.start, hstart]
  omega

/-- R205: with an explicit timeout of 0 the loop makes no pass. -/
theorem waitPeak_zero {s : State} {ds rest : List Draw} (hs : s.legal) (hpin : s.session.alertPin = true) (hopt : s.opt = 0)
    (hlength : ds.length = 28) (hok : ∀ d ∈ ds, d.fails = false) (he : s.env = ds ++ rest) :
    ∃ t m m' restore, exec (.waitPeak false) s = .next t ∧ t.resp = .failed .timeout ∧ t.env = rest ∧
      t.trace = s.trace ++ overrideTrace s.dev.config m ++ restore ∧ isRestoreTrace s.sh m' restore ∧
      storedMask m = storedMask s.dev.mask ∧ storedMask m' = (storedMask s.dev.mask &&& 0x0003) ||| 0x0400 ∧
      CallerRestored s t := by
  have hs' := hs
  obtain ⟨_, hsh, hdev⟩ := hs'
  rw [← List.take_append_drop 14 ds, List.append_assoc] at he
  obtain ⟨a, ha, haenv⟩ := configure_succeeds overrideSettings_legal (s := s.startPeak) hdev he
    (by rw [List.length_take, hlength]; rfl) fun d hd => hok d (List.mem_of_mem_take hd)
  obtain ⟨_, hconfigured⟩ := configure_ok overrideSettings_legal (s := s.startPeak) hdev ha
  obtain ⟨t, ht, htenv⟩ := configure_succeeds (settings_legal hsh) hconfigured.legal haenv
    (by rw [List.length_drop, hlength]) fun d hd => hok d (List.mem_of_mem_drop hd)
  have hT : peakTimeout false s = 0 := hopt
  have hrun : PeakRun (peakTimeout false s) s.opq false s a a t :=
    ⟨ha, peakLoop_of_expired (by rw [hT]; exact Nat.zero_le _) _ _, ht⟩
  obtain ⟨m, m', hfirst, hlast⟩ := hrun.configured hs
  have hdone := hrun.done hs hfirst hlast
  obtain ⟨l, hl, hrestore⟩ := hdone.restore
  have hexec := exec_waitPeak_of_ok hs hpin (peakRun_of_parts hrun)
  exact ⟨peakAnswer false t, m, m', l, hexec, rfl, htenv, hl.trans (by rw [hdone.override]), hrestore, hdone.readFirst,
    hdone.readLast, callerRestored hs hdone hexec⟩

/-- Settles O57: no pass at all with the timeout 0, and over quiet draws as many as it takes. -/
theorem waitPeakWithNoEdgeTimesOut : Obligations.WaitPeakWithNoEdgeTimesOut := by
  constructor
  · intro s ds rest hs hpin hopt hlength hok he
    obtain ⟨t, m, m', l, hexec, hresp, henv, htrace, hrestore, hfirst, hlast, hsh, hidle, hsession, hdev⟩ :=
      waitPeak_zero hs hpin hopt hlength hok he
    exact ⟨t, m, m', l, hexec, hresp, hsh, henv, hidle, hsession, htrace, hrestore, hfirst, hlast, hdev⟩
  · intro s a T n rest hs hpin hT hn he
    rw [List.append_assoc, List.append_assoc] at he
    obtain rfl : T = peakTimeout a s := hT
    obtain ⟨t, l, hexec, hresp, hnow, henv, hrestore, htrace, hsh, hidle, hsession, hdev⟩ :=
      waitPeak_quiet hs hpin he fun b hb => peakLoop_timesOut s.opq hpin hb hn
    exact ⟨t, _, l, hexec, hresp, hsh, hnow, henv, hidle, hsession, rfl, hrestore, htrace, hdev⟩

end Sys2Proof.Machine
end

section
/-! WAIT_PEAK over three edges whose samples rise and fall (R201 to R205). -/

namespace Sys2Proof.Machine

/-- R161: a larger count is a higher voltage. -/
theorem rawToVolts_lt (x : Session) {n k : Word} (h : n.toNat < k.toNat) : rawToVolts x n < rawToVolts x k := by
  have hd := divider_pos x
  have hcount : (n.toNat : Rat) < k.toNat := by exact_mod_cast h
  rw [rawToVolts_eq_linear, rawToVolts_eq_linear]
  gcongr

/-- R201: three samples that rise and fall, the outer two above the threshold. -/
theorem isPeak_of_rise_and_fall {a b c thr : Rat} (hab : a < b) (hcb : c < b) (ha : thr < a) (hc : thr < c) :
    isPeak [a, b, c] thr = true :=
  (isPeak_iff _ _).mpr ⟨a, b, c, rfl, sub_neg.mpr hcb, sub_pos.mpr hab, ha, ha.trans hab, hc⟩

/-- R205: the transactions of `e` passes without an edge and one with the sample `x`, while Mask/Enable holds `m`. -/
def sampleReads (m : Word) (e : Nat) (x : Word) : List Txn := List.replicate e (.read 0x06 m) ++ [.read 0x06 m, .read 0x02 x]

/-- R204, R205: the loop over three edges, with passes without an edge before each, finds the peak at the third sample. -/
theorem peakLoop_finds {T : Nat} {thr : Rat} {s a : State} {x y z : Word} {j k l e f g : Nat} {rest : List Draw}
    (hpin : s.session.alertPin = true)
    (ha : Overridden s a ((silentPasses e ++ peakPass j x) ++ (silentPasses f ++ peakPass k y) ++
      (silentPasses g ++ peakPass l z) ++ rest))
    (hj : j < 1000) (hk : k < 1000) (hl : l < 1000) (htime : j + k + l + 1000 * (e + f + g) < T)
    (hpeak : isPeak [rawToVolts s.session x, rawToVolts s.session y, rawToVolts s.session z] thr = true) :
    ∃ b, peakLoop T thr (T + a.env.length + 1) a = .ok true b ∧ b.env = rest ∧
      Looped (sampleReads ((s.dev.mask &&& 0x0007) ||| 0x0400) e x ++ sampleReads ((s.dev.mask &&& 0x0007) ||| 0x0400) f y ++
        sampleReads ((s.dev.mask &&& 0x0007) ||| 0x0400) g z) [x, y, z] (j + k + l + 1000 * (e + f + g)) a b := by
  obtain ⟨henv, hnow, hmask, hauto, hsession, hp⟩ := ha
  have hread : flagsRead a.dev.mask := hmask ▸ overridden_mask_flagsRead _
  have hwin : a.p.win = [] := by rw [hp]; rfl
  have hstart : a.p.tStart = a.now := by rw [hp, hnow]; rfl
  obtain ⟨n, hfuel⟩ := Nat.exists_eq_add_of_le (show e + f + g + 3 ≤ T + a.env.length + 1 by
    rw [henv]
    simp only [List.length_append, peakPass, List.length_cons]
    omega)
  replace hfuel : T + a.env.length + 1 = e + (f + (g + (n + 1) + 1) + 1) := by omega
  rw [← hsession] at hpin hpeak
  rw [List.append_assoc, List.append_assoc] at henv
  rw [hfuel, ← hmask]
  obtain ⟨b, hb, hbenv, hfirst⟩ := peakLoop_sample (T := T) thr (f + (g + (n + 1) + 1)) hpin hauto hstart.le henv hread hj
    (by rw [hstart]; omega)
  have hbnow := hfirst.now
  obtain ⟨c, hc, hcenv, hsecond⟩ := peakLoop_sample (T := T) (s := b) thr (g + (n + 1)) (by rwa [hfirst.session])
    (by rwa [hfirst.shadow]) (by rw [hfirst.start]; omega) hbenv (by rwa [hfirst.mask]) hk (by rw [hfirst.start]; omega)
  have htwo := hfirst.trans hsecond
  have hcnow := htwo.now
  obtain ⟨d, hd, hdenv, hthird⟩ := peakLoop_sample (T := T) (s := c) thr n (by rwa [htwo.session])
    (by rwa [htwo.shadow]) (by rw [htwo.start]; omega) hcenv (by rwa [htwo.mask]) hl (by rw [htwo.start]; omega)
  have hthree := htwo.trans hthird
  have hbwin : b.p.win = [rawToVolts a.session x] := by rw [hfirst.window, hwin]; rfl
  have hcwin : c.p.win = [rawToVolts a.session x, rawToVolts a.session y] := by rw [htwo.window, hwin]; rfl
  have hdwin : d.p.win = [rawToVolts a.session x, rawToVolts a.session y, rawToVolts a.session z] := by
    rw [hthree.window, hwin]
    rfl
  have htotal : 1000 * e + j + (1000 * f + k) + (1000 * g + l) = j + k + l + 1000 * (e + f + g) := by omega
  rw [hfirst.mask, htwo.mask, htotal] at hthree
  refine ⟨d, ?_, hdenv, hthree⟩
  rw [hb, hbwin, if_neg (by simp [isPeak]), hc, hcwin, if_neg (by simp [isPeak]), hd, hdwin, if_pos hpeak]

/-- Settles O56: the loop finds the peak, between a quiet override and a quiet restore. -/
theorem waitPeakFindsThePeak : Obligations.WaitPeakFindsThePeak := by
  intro s a x y z j k l e f g rest hs hpin hj hk hl htime he hxy hzy hx hz
  have hpeak := isPeak_of_rise_and_fall (rawToVolts_lt s.session hxy) (rawToVolts_lt s.session hzy) hx hz
  have henv : s.env = List.replicate 14 quietDraw ++
      (((silentPasses e ++ peakPass j x) ++ (silentPasses f ++ peakPass k y) ++ (silentPasses g ++ peakPass l z)) ++
        (List.replicate 14 quietDraw ++ rest)) := by
    simp only [he, List.append_assoc]
  obtain ⟨t, restore, hexec, hresp, hnow, htenv, hrestore, htrace, hsh, hidle, hsession, hdev⟩ :=
    waitPeak_quiet hs hpin henv fun b hb => peakLoop_finds hpin hb hj hk hl htime hpeak
  refine ⟨t, _, restore, hexec, hresp, hsh, ?_, htenv, hidle, hsession, rfl, hrestore, ?_, hdev⟩
  · rw [hnow]
    omega
  · rw [htrace]
    simp only [sampleReads, List.append_assoc]

end Sys2Proof.Machine
end

section
/-! WAIT_PEAK against its bus trace, transaction by transaction: what shadow and device hold at any point, and where a failed
transaction leaves them (R72, R101, R247, R291). -/

namespace Sys2Proof.Machine

/-! ### The last word written -/

/-- A transaction other than a successful write. -/
def Txn.writesNothing : Txn → Bool
  | .write _ _ => false
  | _ => true

theorem writesNothing_of_failed {x : Txn} (h : x.failed = true) : x.writesNothing = true := by
  cases x with
  | write b v => cases h
  | read b v => rfl
  | readFailed b => rfl
  | writeFailed b v => rfl

theorem lastWrite_append (r : Byte) (w : Word) (l k : List Txn) :
    lastWrite r w (l ++ k) = lastWrite r (lastWrite r w l) k := List.foldl_append

theorem lastWrite_of_writesNothing (r : Byte) {k : List Txn} (h : ∀ y ∈ k, y.writesNothing = true) (w : Word) :
    lastWrite r w k = w := by
  induction k with
  | nil => rfl
  | cons y k ih =>
    obtain ⟨hy, hk⟩ := List.forall_mem_cons.mp h
    cases y with
    | write b v => cases hy
    | read b v => exact ih hk
    | readFailed b => exact ih hk
    | writeFailed b v => exact ih hk

/-- R56: the word that an RMW of `a` writes is the last one written to `a`, and it writes to no other register. -/
theorem lastWrite_rmw (r a : Byte) (w old new : Word) (l : List Txn) :
    lastWrite r w (l ++ [.read a old, .write a new]) = if a = r then new else lastWrite r w l := by
  rw [lastWrite_append]
  rfl

theorem addr_inj {r q : DevReg} : r.addr = q.addr ↔ r = q := by
  constructor
  · cases r <;> cases q <;> decide
  · rintro rfl
    rfl

theorem storedAs_other {r : DevReg} (h : r ≠ .mask) (w : Word) : storedAs r w = w := if_neg h

/-- What a register stores is stored as it stands. -/
theorem storedAs_stored (d : Device) (r : DevReg) : storedAs r (d.stored r) = d.stored r := by
  by_cases h : r = .mask
  · subst h
    show storedMask (storedMask d.mask) = storedMask d.mask
    rw [storedMask, storedMask, BitVec.and_assoc, BitVec.and_self]
  · exact storedAs_other h _

/-- R57, R58: what an RMW writes is what the register then stores. -/
theorem afterRmw_storedAs {d : Device} {r : DevReg} {m v : Word} (d1 d2 : Draw) (hl : d.legal) (h : fieldBits r m v) :
    (d.afterRmw r m v d1 d2).stored r = storedAs r (mergeBits ((d.evolve d1).get r) m v) := by
  rw [afterRmw_stored d1 d2 hl h]
  obtain ⟨rfl, _, _⟩ | ⟨rfl, hm, hv⟩ := h
  · rfl
  · show _ = storedMask (mergeBits (ownFlags d.mask d1) m v)
    rw [storedMask_merge _ hm hv, ownFlags_storedMask]
    rfl

/-! ### Shadow and device against the trace -/

/-- The six settings of the shadow in the order of `cfgUnpack`. -/
abbrev Shadow.unpacked (sh : Shadow) : Nat × Nat × Nat × Bool × Bool × Bool :=
  (sh.avg, sh.vbusct, sh.ishct, sh.cont, sh.mv, sh.mc)

/-- Since `s` no transaction has failed, each device register stores the last word written to it, and the settings of the
shadow are those of the last words written to Configuration and Mask/Enable (R101, R283). -/
structure Mirrors (s t : State) : Prop where
  legal : t.dev.legal
  session : t.session = s.session
  unfailed : ∀ x ∈ t.trace, x.failed = false
  stored : ∀ r, t.dev.stored r = storedAs r (lastWrite r.addr (s.dev.stored r) t.trace)
  config : cfgUnpack (lastWrite 0x00 s.dev.config t.trace) = t.sh.unpacked
  sources : (lastWrite 0x06 s.dev.mask t.trace).extractLsb' 10 6 = t.sh.amask
  pins : t.sh.apol = s.sh.apol ∧ t.sh.latch = s.sh.latch

/-- Reads alone keep the account. -/
theorem Mirrors.reads {s a b : State} {k : List Txn} (h : Mirrors s a) (htrace : b.trace = a.trace ++ k)
    (hk : ∀ y ∈ k, ∃ c w, y = .read c w) (hl : b.dev.legal) (hsession : b.session = a.session) (hkept : a.storesNothing b) :
    Mirrors s b := by
  obtain ⟨hsh, hstored⟩ := hkept
  have hnothing : ∀ y ∈ k, y.writesNothing = true := fun y hy => by
    obtain ⟨c, w, rfl⟩ := hk y hy
    rfl
  have hsame : ∀ r w, lastWrite r w b.trace = lastWrite r w a.trace := fun r w => by
    rw [htrace, lastWrite_append, lastWrite_of_writesNothing r hnothing]
  refine ⟨hl, hsession.trans h.session, ?_, fun r => ?_, ?_, ?_, ?_⟩
  · rw [htrace]
    refine List.forall_mem_append.mpr ⟨h.unfailed, fun y hy => ?_⟩
    obtain ⟨c, w, rfl⟩ := hk y hy
    rfl
  · rw [hsame, hstored, h.stored]
  · rw [hsame, hsh, h.config]
  · rw [hsame, hsh, h.sources]
  · rw [hsh]
    exact h.pins

/-- From `a` to `t` reads, and then the failed transaction `x`, which `e` names; nothing was committed, and a register may
hold the word of a failed write (R72, R101). -/
structure StopsAt (a t : State) (e : OpError) (k : List Txn) (x : Txn) : Prop where
  trace : t.trace = a.trace ++ (k ++ [x])
  reads : ∀ y ∈ k, ∃ c w, y = .read c w
  failed : x.failed = true
  error : e = x.transportError
  shadow : t.sh = a.sh
  stored : ∀ r, t.dev.stored r = a.dev.stored r ∨ ∃ w, x = .writeFailed r.addr w ∧ t.dev.stored r = storedAs r w

/-- A part of WAIT_PEAK that began at `s`: it ended with the account in order, or stopped at a failed transaction. -/
def Res.mirrors {α : Type} (s : State) (r : Res α) : Prop :=
  match r with
  | .ok _ t => Mirrors s t
  | .err e t => ∃ a k x, Mirrors s a ∧ StopsAt a t e k x

theorem bind_mirrors {α β : Type} {s : State} {r : Res α} {f : α → State → Res β} (hr : r.mirrors s)
    (hf : ∀ v t, r = .ok v t → Mirrors s t → (f v t).mirrors s) : (r.bind f).mirrors s := by
  cases r with
  | ok v t => exact hf v t rfl hr
  | err e t => exact hr

/-! ### One update -/

/-- R72, R101: an update raises an error only where its read or its write failed. -/
theorem run_err {u : FieldUpdate} {r : DevReg} {a t : State} {e : OpError} (hl : a.dev.legal) (hu : u.fits r)
    (h : u.run r a = .err e t) : ∃ k x, StopsAt a t e k x := by
  unfold FieldUpdate.run rmw at h
  have hread := regRead_storesNothing a r
  cases hr : regRead r a with
  | err e' b =>
    rw [hr] at h hread
    cases h
    obtain ⟨htrace, he⟩ := regRead_err_trace hr
    exact ⟨[], _, htrace, by simp, rfl, he, hread.1, fun q => .inl (hread.2 q)⟩
  | ok old b =>
    rw [hr, bind_ok] at h
    rw [hr] at hread
    have hwrite := regWrite_accessOnly b r (mergeBits old u.mask u.value)
    cases hw : regWrite r (mergeBits old u.mask u.value) b with
    | ok v c => rw [hw] at h; cases h
    | err e' c =>
      rw [hw] at h hwrite
      cases h
      have hdev := regWrite_err_dev hw
      obtain ⟨_, hold, hb⟩ := regRead_ok a hr
      obtain ⟨_, he, hc⟩ := regWrite_err b hw
      have htrace : t.trace = b.trace ++ [.writeFailed r.addr (mergeBits old u.mask u.value)] := by
        rw [hc]
        simp [State.atAccess, State.drop]
      refine ⟨[.read r.addr old], .writeFailed r.addr (mergeBits old u.mask u.value), ?_, by simp, rfl, he, ?_, fun q => ?_⟩
      · rw [htrace, regRead_ok_trace hr, List.append_assoc]
      · have hsh : t.sh = b.sh := sh_of_accessOnly hwrite
        exact hsh.trans hread.1
      · obtain hkept | htook := hdev
        · rw [hkept, evolve_stored]
          exact .inl (hread.2 q)
        · have hrmw : t.dev = a.dev.afterRmw r u.mask u.value a.nextDraw b.nextDraw := by
            rw [htook, hold, hb]
            rfl
          rw [hrmw]
          by_cases hq : q = r
          · subst hq
            exact .inr ⟨_, rfl, by rw [hold]; exact afterRmw_storedAs _ _ hl hu⟩
          · exact .inl (afterRmw_stored_other _ _ hl hu q hq)

/-- An update whose commit records what its field of `r` holds, and nothing else (R84, R101). -/
structure FieldUpdate.Records (u : FieldUpdate) (r : DevReg) : Prop where
  fits : u.fits r
  config : r = .config → ∀ (w : Word) (sh : Shadow), cfgUnpack w = sh.unpacked → cfgUnpack (u.over w) = (u.commit sh).unpacked
  sources : r = .mask → ∀ (w : Word) (sh : Shadow), (u.over w).extractLsb' 10 6 = (u.commit sh).amask
  otherConfig : r ≠ .config → ∀ sh : Shadow, (u.commit sh).unpacked = sh.unpacked
  otherSources : r ≠ .mask → ∀ sh : Shadow, (u.commit sh).amask = sh.amask
  pins : ∀ sh : Shadow, (u.commit sh).apol = sh.apol ∧ (u.commit sh).latch = sh.latch

/-- R56, R101: an update that ended keeps the account. -/
theorem Mirrors.update {s a t : State} {u : FieldUpdate} {r : DevReg} (h : Mirrors s a) (hu : u.Records r)
    (hrun : u.run r a = .ok () t) : Mirrors s t := by
  obtain ⟨hdone, d1, d2, hdev, htrace, _⟩ := run_ok h.legal hu.fits hrun
  obtain ⟨⟨hsession, _⟩, _, _, _, _, hstored⟩ := hdone.frame
  have hlast : ∀ q w, lastWrite q w t.trace =
      if r.addr = q then u.over ((a.dev.evolve d1).get r) else lastWrite q w a.trace := fun q w => by
    rw [htrace, lastWrite_rmw]
  refine ⟨hdone.legal, hsession.trans h.session, ?_, fun q => ?_, ?_, ?_, ?_⟩
  · rw [htrace]
    exact List.forall_mem_append.mpr ⟨h.unfailed, by simp [Txn.failed]⟩
  · rw [hlast]
    by_cases hq : r = q
    · subst hq
      rw [if_pos rfl, hdev]
      exact afterRmw_storedAs d1 d2 h.legal hu.fits
    · rw [if_neg fun hqq => hq (addr_inj.mp hqq), hstored q (by simpa using Ne.symm hq), h.stored q]
  · rw [hlast, hdone.shadow]
    by_cases hr : r = .config
    · subst hr
      have hword : cfgUnpack a.dev.config = a.sh.unpacked := (congrArg cfgUnpack (h.stored .config)).trans h.config
      exact (congrArg cfgUnpack (if_pos rfl)).trans (hu.config rfl _ _ hword)
    · have hne : r.addr ≠ 0x00 := fun hrr => hr (addr_inj (q := .config).mp hrr)
      rw [if_neg hne, h.config, hu.otherConfig hr]
  · rw [hlast, hdone.shadow]
    by_cases hr : r = .mask
    · subst hr
      exact (congrArg _ (if_pos rfl)).trans (hu.sources rfl _ _)
    · have hne : r.addr ≠ 0x06 := fun hrr => hr (addr_inj (q := .mask).mp hrr)
      rw [if_neg hne, h.sources, hu.otherSources hr]
  · obtain ⟨hapol, hlatch⟩ := hu.pins a.sh
    rw [hdone.shadow, hapol, hlatch]
    exact h.pins

theorem run_mirrors {s a : State} {u : FieldUpdate} {r : DevReg} (h : Mirrors s a) (hu : u.Records r) :
    (u.run r a).mirrors s := by
  cases hrun : u.run r a with
  | ok v t => exact h.update hu hrun
  | err e t =>
    obtain ⟨k, x, hstop⟩ := run_err h.legal hu.fits hrun
    exact ⟨a, k, x, h, hstop⟩

/-! ### Override, loop and restore -/

theorem records_config {u : FieldUpdate} (hu : u.fits .config)
    (hconfig : ∀ (w : Word) (sh : Shadow), cfgUnpack w = sh.unpacked → cfgUnpack (u.over w) = (u.commit sh).unpacked)
    (hothers : ∀ sh : Shadow, (u.commit sh).amask = sh.amask ∧ (u.commit sh).apol = sh.apol ∧ (u.commit sh).latch = sh.latch) :
    u.Records .config :=
  ⟨hu, fun _ => hconfig, nofun, fun h => absurd rfl h, fun _ sh => (hothers sh).1, fun sh => (hothers sh).2⟩

theorem fields_record {x : Saved} (hx : x.legal) : ∀ u ∈ x.fields, u.Records .config := by
  have hfit := fields_fit hx
  obtain ⟨havg, hv, hi, _⟩ := hx
  simp only [Saved.fields, modeFields, List.forall_mem_cons] at hfit ⊢
  obtain ⟨favg, fbus, fshunt, fcont, fmv, fmc, _⟩ := hfit
  refine ⟨records_config favg (fun w sh h => ?_) fun _ => ⟨rfl, rfl, rfl⟩,
    records_config fbus (fun w sh h => ?_) fun _ => ⟨rfl, rfl, rfl⟩,
    records_config fshunt (fun w sh h => ?_) fun _ => ⟨rfl, rfl, rfl⟩,
    records_config fcont (fun w sh h => ?_) fun _ => ⟨rfl, rfl, rfl⟩,
    records_config fmv (fun w sh h => ?_) fun _ => ⟨rfl, rfl, rfl⟩,
    records_config fmc (fun w sh h => ?_) fun _ => ⟨rfl, rfl, rfl⟩, by simp⟩
  · rw [cfgUnpack_avgField w havg, h]; rfl
  · rw [cfgUnpack_busCtField w hv, h]; rfl
  · rw [cfgUnpack_shuntCtField w hi, h]; rfl
  · rw [cfgUnpack_contField, h]; rfl
  · rw [cfgUnpack_measVField, h]; rfl
  · rw [cfgUnpack_measIField, h]; rfl

theorem sources_records (x : Saved) : x.sources.Records .mask :=
  ⟨alertField_fits _, nofun, fun _ w _ => extract_sources w _, fun _ _ => rfl, fun h => absurd rfl h, fun _ => ⟨rfl, rfl⟩⟩

theorem runUpdates_mirrors {s a : State} {l : List FieldUpdate} (h : Mirrors s a) (hl : ∀ u ∈ l, u.Records .config) :
    (runUpdates l a).mirrors s := by
  induction l generalizing a with
  | nil => exact h
  | cons u l ih =>
    obtain ⟨hu, hrest⟩ := List.forall_mem_cons.mp hl
    exact bind_mirrors (run_mirrors h hu) fun _ b _ hb => ih hb hrest

theorem configure_mirrors {x : Saved} {s a : State} (hx : x.legal) (h : Mirrors s a) : (configure x a).mirrors s :=
  bind_mirrors (runUpdates_mirrors h (fields_record hx)) fun _ _ _ hb => run_mirrors hb (sources_records x)

theorem passTrace_reads {passes : List (Word × Option Word)} : ∀ y ∈ passes.flatMap passTrace, ∃ b w, y = .read b w := by
  intro y hy
  obtain ⟨⟨w, sample⟩, _, hmem⟩ := List.mem_flatMap.mp hy
  cases sample with
  | none => exact ⟨_, _, List.mem_singleton.mp hmem⟩
  | some raw =>
    obtain rfl | rfl : y = .read 0x06 w ∨ y = .read 0x02 raw := by simpa [passTrace] using hmem
    · exact ⟨_, _, rfl⟩
    · exact ⟨_, _, rfl⟩

/-- R204: the loop only reads. -/
theorem peakLoop_mirrors {T n : Nat} {thr : Rat} {s a : State} (h : Mirrors s a) (hpin : a.session.alertPin = true)
    (hwin : a.p.win = []) : (peakLoop T thr n a).mirrors s := by
  have hkept := storesNothing_readClosed.peakLoop (fun u _ => storesNothing_refl u) T thr n a
  have hlegal := keepsLegal_closed.toReadClosed.peakLoop (fun u _ => keepsLegal_refl u) T thr n a
  have hidentity := keepsIdentity_closed.toReadClosed.peakLoop (fun u _ => keepsIdentity_refl u) T thr n a
  cases hloop : peakLoop T thr n a with
  | ok found b =>
    rw [hloop] at hkept hlegal hidentity
    obtain ⟨⟨hsession, _⟩, _⟩ := hidentity
    obtain ⟨passes, htrace, _⟩ := peakLoop_ok (before := []) hpin hwin rfl hloop
    exact h.reads htrace passTrace_reads (hlegal.2 h.legal) hsession hkept
  | err e b =>
    rw [hloop] at hkept
    obtain ⟨reads, c, htrace, hreads, he⟩ := peakLoop_err hpin hloop
    exact ⟨a, reads, .readFailed c, h, by rw [htrace, List.append_assoc], hreads, rfl, he, hkept.1,
      fun q => .inl (hkept.2 q)⟩

end Sys2Proof.Machine
end

section
/-! WAIT_PEAK restores the caller's configuration, unless a transaction fails (R201 to R205, R291). -/

namespace Sys2Proof.Machine

/-! ### No transaction failed -/

section
variable {T : Nat} {thr : Rat} {found : Bool} {s a b t : State}

/-- R203, R283: where shadow and device agreed, every stored bit is what it was. -/
theorem PeakDone.stored {m m' : Word} (h : PeakDone s a b t m m') (hs : s.legal) (hagrees : s.agrees) (r : DevReg) :
    t.dev.stored r = s.dev.stored r := by
  obtain ⟨_, ⟨havg, hv, hi, _⟩, hdev⟩ := hs
  obtain ⟨hconfig, hsources, _⟩ := hagrees
  by_cases hc : r = .config
  · subst hc
    refine h.config.trans (config_eq_of_cfgUnpack (cfgPack_legal havg hv hi _ _ _) hdev.1 ?_)
    exact (unpackInvertsPack.2 _ _ _ _ _ _ havg hv hi).trans hconfig.symm
  · by_cases hm : r = .mask
    · subst hm
      have hown : (storedMask s.dev.mask).extractLsb' 10 6 = s.sh.amask := (extract_storedMask _).trans hsources
      exact h.sources.trans (by rw [← hown]; exact mergeBits_sources_self _)
    · exact h.others r (by simp [hc, hm])

/-- R204, R205: the loop of a run that ended. -/
theorem PeakRun.ended (h : PeakRun T thr found s a b t) (hs : s.legal) (hpin : s.session.alertPin = true) :
    ∃ passes : List (Word × Option Word), b.trace = a.trace ++ passes.flatMap passTrace ∧
      found = endsInPeak s.session thr (passes.filterMap Prod.snd) ∧
      noEarlierPeak s.session thr [] (passes.filterMap Prod.snd) := by
  obtain ⟨_, _, hfirst, _⟩ := h.configured hs
  obtain ⟨⟨hsession, _⟩, _, _, hp, _⟩ := hfirst.frame
  have hsame : a.session = s.session := hsession
  have hended := peakLoop_ok (before := []) (by rwa [hsame]) (congrArg PeakRegs.win hp) rfl h.loop
  unfold LoopEnded at hended
  rwa [hsame] at hended

/-- R205: a run without a peak has used up the timeout. -/
theorem PeakRun.expired (h : PeakRun T thr false s a b t) (hs : s.legal) : s.now + T ≤ t.now := by
  obtain ⟨_, _, hfirst, hlast⟩ := h.configured hs
  obtain ⟨_, _, _, hp, hanow, _⟩ := hfirst.frame
  obtain ⟨_, _, _, _, hbnow, _⟩ := hlast.frame
  have hstart : a.p.tStart = s.now := congrArg PeakRegs.tStart hp
  have hbegan : s.now ≤ a.now := hanow
  have hwaited := peakLoop_expired _ (by rwa [hstart]) (by omega) h.loop
  have hloop := keepsIdentity_closed.toReadClosed.peakLoop (fun u _ => keepsIdentity_refl u) T thr (T + a.env.length + 1) a
  rw [h.loop] at hloop
  obtain ⟨_, _, hpassed⟩ := hloop
  have hlooped : a.now ≤ b.now := hpassed
  rw [hstart] at hwaited
  omega

end

/-! ### With or without a failure -/

theorem mirrors_startPeak {s : State} (hdev : s.dev.legal) (hagrees : s.agrees) (htrace : s.trace = []) :
    Mirrors s s.startPeak := by
  obtain ⟨hconfig, hsources, _⟩ := hagrees
  have hstart : s.startPeak.trace = [] := htrace
  refine ⟨hdev, rfl, ?_, fun r => ?_, ?_, ?_, rfl, rfl⟩
  · rw [hstart]
    exact List.forall_mem_nil _
  · rw [hstart]
    exact (storedAs_stored s.dev r).symm
  · rw [hstart]
    exact hconfig
  · rw [hstart]
    exact hsources

theorem peakRun_mirrors {s : State} (T : Nat) (thr : Rat) (hs : s.legal) (hagrees : s.agrees)
    (hpin : s.session.alertPin = true) (htrace : s.trace = []) : (peakRun T thr s).mirrors s := by
  obtain ⟨_, hsh, hdev⟩ := hs
  refine bind_mirrors (configure_mirrors overrideSettings_legal (mirrors_startPeak hdev hagrees htrace)) fun u a ha hma => ?_
  obtain ⟨_, hoverride⟩ := configure_ok overrideSettings_legal (s := s.startPeak) hdev ha
  obtain ⟨_, _, _, hp, _⟩ := hoverride.frame
  refine bind_mirrors (peakLoop_mirrors hma (by rw [hma.session, hpin]) (congrArg PeakRegs.win hp)) fun found b _ hmb => ?_
  exact bind_mirrors (configure_mirrors (settings_legal hsh) hmb) fun _ _ _ hmt => hmt

/-- What a failed transaction leaves (R72, R101, R291). -/
theorem StopsAt.account {s a t : State} {e : OpError} {k : List Txn} {x : Txn} (h : StopsAt a t e k x) (hm : Mirrors s a) :
    ∃ before, t.trace = before ++ [x] ∧ (∀ y ∈ before, y.failed = false) ∧
      cfgUnpack (lastWrite 0x00 s.dev.config t.trace) = t.sh.unpacked ∧
      (lastWrite 0x06 s.dev.mask t.trace).extractLsb' 10 6 = t.sh.amask ∧
      t.sh.apol = s.sh.apol ∧ t.sh.latch = s.sh.latch ∧
      ∀ r, t.dev.stored r = storedAs r (lastWrite r.addr (s.dev.stored r) t.trace) ∨
        ∃ w, x = .writeFailed r.addr w ∧ t.dev.stored r = storedAs r w := by
  have hnothing : ∀ y ∈ k ++ [x], y.writesNothing = true := by
    refine List.forall_mem_append.mpr ⟨fun y hy => ?_, List.forall_mem_singleton.mpr ?_⟩
    · obtain ⟨c, w, rfl⟩ := h.reads y hy
      rfl
    · exact writesNothing_of_failed h.failed
  have hsame : ∀ r w, lastWrite r w t.trace = lastWrite r w a.trace := fun r w => by
    rw [h.trace, lastWrite_append, lastWrite_of_writesNothing r hnothing]
  refine ⟨a.trace ++ k, by rw [h.trace, List.append_assoc], ?_, ?_, ?_, ?_, ?_, fun r => ?_⟩
  · refine List.forall_mem_append.mpr ⟨hm.unfailed, fun y hy => ?_⟩
    obtain ⟨c, w, rfl⟩ := h.reads y hy
    rfl
  · rw [hsame, h.shadow, hm.config]
  · rw [hsame, h.shadow, hm.sources]
  · rw [h.shadow]
    exact hm.pins.1
  · rw [h.shadow]
    exact hm.pins.2
  · rw [hsame, ← hm.stored]
    exact h.stored r

/-- Settles O55: a run that ended is override, passes and restore; one that did not has its failed transaction last. -/
theorem waitPeakRestoresTheConfiguration : Obligations.WaitPeakRestoresTheConfiguration := by
  intro s t a hs hagrees hpin htrace hexec
  have hidle := exec_fsm_idle hs.1 hexec
  have hmirrors := peakRun_mirrors (peakTimeout a s) s.opq hs hagrees hpin htrace
  cases hrun : peakRun (peakTimeout a s) s.opq s with
  | ok found u =>
    rw [hrun] at hmirrors
    obtain rfl : peakAnswer found u = t := by
      rw [exec_waitPeak_of_ok hs hpin hrun] at hexec
      injection hexec
    obtain ⟨hsh, hdev, hutrace, _, hnow⟩ := peakAnswer_kept found u
    refine ⟨fun _ => ?_, fun ⟨x, hx, hfailed⟩ => ?_⟩
    · obtain ⟨b, c, hparts⟩ := peakRun_ok hrun
      obtain ⟨m, m', hfirst, hlast⟩ := hparts.configured hs
      have hdone := hparts.done hs hfirst hlast
      obtain ⟨l, hl, hrestore⟩ := hdone.restore
      obtain ⟨passes, hpasses, hfound, hearlier⟩ := hparts.ended hs hpin
      refine ⟨⟨m, m', passes, l, ?_, hrestore, hdone.readFirst, hdone.readLast, ?_, fun hresp => ?_, hearlier⟩,
        hsh.trans hdone.shadow, fun r => ?_, hidle⟩
      · rw [hutrace, hl, hpasses, hdone.override, htrace, List.nil_append]
      · rw [peakAnswer_resp, hfound]
      · rw [peakAnswer_resp] at hresp
        cases found with
        | true => cases hresp
        | false => exact hnow ▸ hparts.expired hs
      · rw [hdev]
        exact hdone.stored hs hagrees r
    · rw [hutrace] at hx
      rw [hmirrors.unfailed x hx] at hfailed
      cases hfailed
  | err e u =>
    rw [hrun] at hmirrors
    obtain ⟨b, k, x, hb, hstop⟩ := hmirrors
    obtain rfl : u.raise e = t := by
      rw [exec_waitPeak_of_err hs hpin hrun] at hexec
      injection hexec
    obtain ⟨before, hutrace, hbefore, haccount⟩ := hstop.account hb
    refine ⟨fun hnone => ?_, fun _ => ⟨before, x, hutrace, hstop.failed, hbefore, ?_, hidle, haccount⟩⟩
    · have hx : x ∈ u.trace := by
        rw [hutrace]
        simp
      cases hstop.failed.symm.trans (hnone x hx)
    · exact congrArg Response.failed hstop.error

end Sys2Proof.Machine
end

section
/-! The system operations: RESET, RD_REG and CHECK_ID as their one or two transactions (R230 to R232). -/

namespace Sys2Proof.Machine

section
variable {s : State} {d : Draw} {rest : List Draw}

/-- R54, R59 to R63: what a read that the draw lets pass leaves in the device, beside `regRead_fails`: the stored bits stay,
and with no flag change by the device only a read of Mask/Enable moves flags. -/
theorem regRead_ok_leaves (r : DevReg) (he : s.env = d :: rest) (hd : d.fails = false) :
    ∃ t, regRead r s = .ok ((s.dev.evolve d).get r) t ∧ s.accessOnly t ∧ t.env = rest ∧
      (∀ q, t.dev.stored q = s.dev.stored q) ∧ t.trace = s.trace ++ [.read r.addr ((s.dev.evolve d).get r)] ∧
      (flagsQuiet d → if r = .mask then (s.dev.evolve d).get r = s.dev.mask ∧
        flagsAfterRead ((s.dev.evolve d).get r) t.dev.mask d else t.dev.mask = s.dev.mask) := by
  obtain ⟨t, ht, ha, henv, hdev, htrace⟩ := regRead_succeeds s r he hd
  refine ⟨t, ht, ha, henv, fun q => by simp [hdev], htrace, fun hq => ?_⟩
  rw [hdev, afterRead_mask]
  split
  case isTrue hr =>
    subst hr
    exact ⟨evolve_mask_of_quiet _ hq, clearOnRead_flags _ _⟩
  case isFalse => exact evolve_mask_of_quiet _ hq

/-! ### RESET -/

theorem exec_reset_of_ok {t : State} (h : regWrite .config 0x8000 s = .ok () t) :
    exec .reset s = .next ((t.withShadow Shadow.reset).answer .none) := by
  show complete (resetDevice s).unit = _
  rw [resetDevice, h]
  rfl

theorem exec_reset_of_err {t : State} {e : OpError} (h : regWrite .config 0x8000 s = .err e t) :
    exec .reset s = .next (t.raise e) := by
  show complete (resetDevice s).unit = _
  rw [resetDevice, h]
  rfl

theorem afterWrite_resetBit (e : Device) : e.afterWrite .config 0x8000 = (e.addressed .config).resetRegs :=
  afterWrite_config_reset rfl e

/-- R42, R57: a device reset leaves the registers without a reset value alone. -/
theorem resetBit_stored_other (e : Device) {q : DevReg} (hq : q ∉ [DevReg.config, .mask, .limit]) :
    (e.afterWrite .config 0x8000).stored q = e.stored q := by
  rw [afterWrite_resetBit]
  cases q with
  | config | mask | limit => simp at hq
  | _ => rfl

end

/-- Settles O58: the device takes the one write or does not, and the shadow follows only where the write answered. -/
theorem resetResetsDeviceAndShadow : Obligations.ResetResetsDeviceAndShadow := by
  refine fun s d rest hs he => ⟨fun hd => ?succeeds, fun hd => ?fails⟩
  case succeeds =>
    obtain ⟨t, ht, ha, henv, hdev, htrace⟩ := regWrite_succeeds s .config 0x8000 he hd
    have hreset : t.dev = ((s.dev.evolve d).addressed .config).resetRegs := hdev.trans (afterWrite_resetBit _)
    have hframe : frame s ((t.withShadow Shadow.reset).answer .none) [.config, .mask, .limit] :=
      frame_committed ha fun q hq => by rw [hdev, resetBit_stored_other _ hq, evolve_stored]
    exact ⟨_, exec_reset_of_ok ht, rfl, congrArg Device.config hreset, congrArg Device.mask hreset,
      congrArg Device.limit hreset, rfl, htrace, henv, hframe⟩
  case fails =>
    obtain ⟨t, ht, ha, _, hdev, _⟩ := regWrite_fails s .config 0x8000 he hd
    have hsh : t.sh = s.sh := sh_of_accessOnly ha
    rcases hdev with huntouched | hreset
    · have hstored : ∀ r, t.dev.stored r = s.dev.stored r := fun r => by rw [huntouched, evolve_stored]
      have hmask : flagsQuiet d → t.dev.mask = s.dev.mask := huntouched ▸ evolve_mask_of_quiet s.dev
      exact ⟨_, exec_reset_of_err ht, rfl, hsh, .inl ⟨hstored, hmask⟩, frame_raised ha hs fun q _ => hstored q⟩
    · have hframe : frame s (t.raise (.transport 0 true)) [.config, .mask, .limit] :=
        frame_raised ha hs fun q hq => by rw [hreset, resetBit_stored_other _ hq, evolve_stored]
      rw [afterWrite_resetBit] at hreset
      exact ⟨_, exec_reset_of_err ht, rfl, hsh, .inr ⟨congrArg Device.config hreset, congrArg Device.mask hreset,
        congrArg Device.limit hreset⟩, hframe⟩

/-! ### RD_REG -/

theorem regAt_addr (r : DevReg) : regAt r.addr = some r := by cases r <;> rfl

/-- R231: RD_REG of a mapped address is one read of the register there. -/
theorem exec_rdReg_addr (r : DevReg) (s : State) :
    exec (.rdReg r.addr) s = complete ((regRead r s).bind fun w t => .ok (.word w) t) := by
  show complete ((readRegister r.addr s).bind _) = _
  rw [readRegister, regAt_addr]

theorem exec_rdReg_of_ok {r : DevReg} {s t : State} {w : Word} (h : regRead r s = .ok w t) :
    exec (.rdReg r.addr) s = .next (t.answer (.word w)) := by
  rw [exec_rdReg_addr, h]
  rfl

theorem exec_rdReg_of_err {r : DevReg} {s t : State} {e : OpError} (h : regRead r s = .err e t) :
    exec (.rdReg r.addr) s = .next (t.raise e) := by
  rw [exec_rdReg_addr, h]
  rfl

/-- R63: the device changes no register by itself that holds a constant or what the block last wrote. -/
theorem evolve_get_of_constant (e : Device) (d : Draw) {r : DevReg}
    (h : r = .config ∨ r = .limit ∨ r = .manufacturerId ∨ r = .dieId) : (e.evolve d).get r = e.get r := by
  rcases h with rfl | rfl | rfl | rfl <;> rfl

/-- Settles O59: the word is what the register holds at the one read, by the kind of the register. -/
theorem rdRegAnswersTheWord : Obligations.RdRegAnswersTheWord := by
  refine fun s d rest r hs he => ⟨fun hd => ?succeeds, fun hd => ?fails⟩
  case succeeds =>
    obtain ⟨t, ht, ha, henv, hstored, htrace, hflags⟩ := regRead_ok_leaves r he hd
    have hsh : t.sh = s.sh := sh_of_accessOnly ha
    exact ⟨_, _, exec_rdReg_of_ok ht, rfl, htrace, hsh, henv, frame_answered ha fun q _ => hstored q,
      evolve_get_of_constant s.dev d, fun h => h ▸ rfl, fun h => h ▸ rfl, fun h => h ▸ rfl, hflags⟩
  case fails =>
    obtain ⟨t, ht, ha, henv, hstored, htrace, hflags⟩ := regRead_fails s r he hd
    have hsh : t.sh = s.sh := sh_of_accessOnly ha
    exact ⟨_, exec_rdReg_of_err ht, rfl, hsh, frame_raised ha hs fun q _ => hstored q, htrace, henv, hflags⟩

/-! ### CHECK_ID -/

section
variable {s t u : State} {m w : Word} {e : OpError}

theorem exec_checkId_of_ok (h1 : regRead .manufacturerId s = .ok m t) (h2 : regRead .dieId t = .ok w u) :
    exec .checkId s = .next (u.answer (.ident (identityOk m w) (w.extractLsb' 0 4))) := by
  show complete (checkIdentity s) = _
  rw [checkIdentity, h1, bind_ok, h2]
  rfl

theorem exec_checkId_of_firstFails (h1 : regRead .manufacturerId s = .err e t) : exec .checkId s = .next (t.raise e) := by
  show complete (checkIdentity s) = _
  rw [checkIdentity, h1]
  rfl

theorem exec_checkId_of_secondFails (h1 : regRead .manufacturerId s = .ok m t) (h2 : regRead .dieId t = .err e u) :
    exec .checkId s = .next (u.raise e) := by
  show complete (checkIdentity s) = _
  rw [checkIdentity, h1, bind_ok, h2]
  rfl

end

theorem identityOk_iff (m w : Word) : identityOk m w = true ↔ m = 0x5449 ∧ w.extractLsb' 4 12 = 0x227 := by
  simp only [identityOk, Bool.and_eq_true, beq_iff_eq]

/-- Settles O60, by which of the two reads fails; the second meets the identity words the first left (R39). -/
theorem checkIdComparesTheIdentity : Obligations.CheckIdComparesTheIdentity := by
  intro s d1 d2 rest hs he
  refine ⟨fun hd1 hd2 => ?succeeds, fun hd1 => ?firstFails, fun hd1 hd2 => ?secondFails⟩
  case succeeds =>
    obtain ⟨t, ht, ha, henv, hstored, htrace, hmask⟩ := regRead_ok_leaves .manufacturerId he hd1
    obtain ⟨u, hu, hua, huenv, hustored, hutrace, humask⟩ := regRead_ok_leaves .dieId henv hd2
    have hdie : (t.dev.evolve d2).get .dieId = s.dev.dieId := hstored .dieId
    have hboth := accessOnly_trans _ _ _ ha hua
    have hsh : u.sh = s.sh := sh_of_accessOnly hboth
    rw [hdie] at hu hutrace
    rw [htrace, List.append_assoc] at hutrace
    exact ⟨_, _, exec_checkId_of_ok ht hu, rfl, identityOk_iff _ _, hsh, huenv,
      frame_answered hboth fun q _ => (hustored q).trans (hstored q), hutrace, fun hq1 hq2 => (humask hq2).trans (hmask hq1)⟩
  case firstFails =>
    obtain ⟨t, ht, ha, henv, hstored, htrace, hmask⟩ := regRead_fails s .manufacturerId he hd1
    have hsh : t.sh = s.sh := sh_of_accessOnly ha
    exact ⟨_, exec_checkId_of_firstFails ht, rfl, hsh, htrace, henv, frame_raised ha hs fun q _ => hstored q, hmask⟩
  case secondFails =>
    obtain ⟨t, ht, ha, henv, hstored, htrace, hmask⟩ := regRead_ok_leaves .manufacturerId he hd1
    obtain ⟨u, hu, hua, huenv, hustored, hutrace, humask⟩ := regRead_fails t .dieId henv hd2
    have hboth := accessOnly_trans _ _ _ ha hua
    have hsh : u.sh = s.sh := sh_of_accessOnly hboth
    rw [htrace, List.append_assoc] at hutrace
    exact ⟨_, exec_checkId_of_secondFails ht hu, rfl, hsh, hutrace, huenv,
      frame_raised hboth hs fun q _ => (hustored q).trans (hstored q), fun hq1 hq2 => (humask hq2).trans (hmask hq1)⟩

end Sys2Proof.Machine
end

section
/-! How an operation answers, and when a step takes none (R91, R240, R247, R255). -/

namespace Sys2Proof.Machine

/-- Settles O6: the step looks at `fsm` before anything else. -/
theorem stepRefusesWhileBusy : Obligations.StepRefusesWhileBusy := by
  intro s hs
  rw [step, if_neg hs]

/-- R247: no arm ends in a fault or a refusal; each completes with the outcome of its parts. -/
theorem exec_completes (i : Instr) (s : State) : ∃ r : Res Result, exec i s = complete r := by
  cases i <;> exact ⟨_, rfl⟩

/-- R240: the five classes have the codes 1 to 5. -/
theorem code_range (e : OpError) : 1 ≤ e.code ∧ e.code ≤ 5 := by
  cases e <;> simp [OpError.code]

/-- R91: the status that goes with a result or an error. -/
theorem answered_status (r : Res Result) : ∃ n, r.answered.resp.status = some n ∧
    ((n = 0 ∧ ∃ a, r.answered.resp = .done a) ∨ (1 ≤ n ∧ n ≤ 5 ∧ ∃ e, r.answered.resp = .failed e)) := by
  cases r with
  | ok a t => exact ⟨0, rfl, .inl ⟨rfl, a, rfl⟩⟩
  | err e t =>
    obtain ⟨hlow, hhigh⟩ := code_range e
    exact ⟨e.code, rfl, .inr ⟨hlow, hhigh, e, rfl⟩⟩

/-- Settles O14: an operation completes, and completing answers with a status. -/
theorem everyOperationAnswersAndIsIdle : Obligations.EveryOperationAnswersAndIsIdle := by
  intro i s hs
  obtain ⟨r, hr⟩ := exec_completes i s
  obtain ⟨n, hstatus, hresp⟩ := answered_status r
  exact ⟨r.answered, n, hr, exec_fsm_idle hs hr, hstatus, hresp⟩

end Sys2Proof.Machine
end

section
/-! ValidationError, PreconditionError and RangeError are raised before an operation does anything (R248): once a part has
reached the bus or a wait, the errors left to it are TransportError and TimeoutError. -/

namespace Sys2Proof.Machine

/-- An error that the part raises is TransportError or TimeoutError. -/
def Res.imprecise {α : Type} (r : Res α) : Prop :=
  match r with
  | .ok _ _ => True
  | .err e _ => e.precise = false

/-- R248: a precise error that the part raises, begun in `s`, is raised in `s`. -/
def Res.raisesFirst {α : Type} (s : State) (r : Res α) : Prop :=
  match r with
  | .ok _ _ => True
  | .err e t => e.precise = true → t = s

section
variable {α β : Type}

theorem bind_imprecise {r : Res α} {f : α → State → Res β} (hr : r.imprecise)
    (hf : ∀ a t, r = .ok a t → (f a t).imprecise) : (r.bind f).imprecise := by
  cases r with
  | ok a t => exact hf a t rfl
  | err e t => exact hr

theorem raisesFirst_of_imprecise {r : Res α} (hr : r.imprecise) (s : State) : r.raisesFirst s := by
  cases r with
  | ok a t => trivial
  | err e t => exact fun he => by cases he.symm.trans hr

/-- After a part that raises precise errors first come parts that raise none. -/
theorem bind_raisesFirst {s : State} {r : Res α} {f : α → State → Res β} (hr : r.raisesFirst s)
    (hf : ∀ a t, (f a t).imprecise) : (r.bind f).raisesFirst s := by
  cases r with
  | ok a t => exact raisesFirst_of_imprecise (hf a t) s
  | err e t => exact hr

theorem reshaped_raisesFirst {s : State} {r : Res α} (f : α → State → β) (hr : r.raisesFirst s) :
    (r.bind fun a t => .ok (f a t) t).raisesFirst s := bind_raisesFirst hr fun _ _ => trivial

theorem ofExcept_raisesFirst (x : Except OpError α) (s : State) : (Res.ofExcept x s).raisesFirst s := by
  cases x with
  | ok a => trivial
  | error e => exact fun _ => rfl

end

/-- R248: a precise error raised in the idle state that the operation began in is all that changed. -/
theorem answered_of_raisesFirst {r : Res Result} {s : State} {e : OpError} (hs : s.fsm = .idle) (hr : r.raisesFirst s)
    (hresp : r.answered.resp = .failed e) (he : e.precise = true) : r.answered = { s with resp := .failed e } := by
  cases r with
  | ok a t => cases hresp
  | err e' t =>
    obtain rfl : e' = e := Response.failed.inj hresp
    obtain rfl : t = s := hr he
    exact raise_of_idle hs e'

/-! ### On the bus -/

theorem regRead_imprecise (r : DevReg) (s : State) : (regRead r s).imprecise := by
  unfold regRead
  split
  · rfl
  · trivial

theorem regWrite_imprecise (r : DevReg) (v : Word) (s : State) : (regWrite r v s).imprecise := by
  unfold regWrite
  split
  · rfl
  · trivial

theorem readQuantity_imprecise (r : DevReg) (forward : Session → Word → Rat) (s : State) :
    (readQuantity r forward s).imprecise := bind_imprecise (regRead_imprecise r s) fun _ _ _ => trivial

/-- One RMW and its commit (R101). -/
theorem commit_imprecise (r : DevReg) (m v : Word) (c : State → Shadow) (s : State) :
    ((rmw r m v s).bind fun _ t => .ok () (t.withShadow (c t))).imprecise :=
  bind_imprecise (bind_imprecise (regRead_imprecise r s) fun _ t _ => regWrite_imprecise r _ t) fun _ _ _ => trivial

theorem runUpdates_imprecise (l : List FieldUpdate) (s : State) : (runUpdates l s).imprecise := by
  induction l generalizing s with
  | nil => trivial
  | cons u l ih => exact bind_imprecise (commit_imprecise _ _ _ _ s) fun _ t _ => ih t

theorem configure_imprecise (x : Saved) (s : State) : (configure x s).imprecise :=
  bind_imprecise (runUpdates_imprecise _ s) fun _ t _ => commit_imprecise _ _ _ _ t

theorem setLatch_imprecise (b : Bool) (s : State) : (setLatch b s).imprecise := by
  refine bind_imprecise (commit_imprecise _ _ _ _ s) fun _ t _ => ?_
  split
  · exact commit_imprecise _ _ _ _ t
  · trivial

theorem resetDevice_imprecise (s : State) : (resetDevice s).imprecise :=
  bind_imprecise (regWrite_imprecise _ _ s) fun _ _ _ => trivial

theorem checkIdentity_imprecise (s : State) : (checkIdentity s).imprecise :=
  bind_imprecise (regRead_imprecise _ s) fun _ t _ => bind_imprecise (regRead_imprecise _ t) fun _ _ _ => trivial

theorem pollLoop_imprecise (n : Nat) (s : State) : (pollLoop n s).imprecise := by
  induction n generalizing s with
  | zero => trivial
  | succ n ih =>
    refine bind_imprecise (regRead_imprecise _ s) fun me t _ => ?_
    split
    · trivial
    · split
      · trivial
      · exact ih _

/-- R204: with an alert pin no wait of the loop raises PreconditionError. -/
theorem peakLoop_imprecise {T n : Nat} {thr : Rat} {s : State} (hpin : s.session.alertPin = true) :
    (peakLoop T thr n s).imprecise := by
  cases h : peakLoop T thr n s with
  | ok found t => trivial
  | err e t =>
    obtain ⟨_, _, _, _, rfl⟩ := peakLoop_err hpin h
    rfl

/-- R202 to R205: the settings that WAIT_PEAK writes are legal, and its pin has been checked. -/
theorem peakRun_imprecise (T : Nat) (thr : Rat) {s : State} (hs : s.legal) (hpin : s.session.alertPin = true) :
    (peakRun T thr s).imprecise := by
  obtain ⟨_, _, hdev⟩ := hs
  refine bind_imprecise (configure_imprecise _ _) fun u a ha => ?_
  obtain ⟨_, hoverride⟩ := configure_ok overrideSettings_legal (s := s.startPeak) hdev ha
  obtain ⟨⟨hsession, _⟩, _⟩ := hoverride.frame
  have hpinned : a.session.alertPin = true := (congrArg Session.alertPin hsession).trans hpin
  exact bind_imprecise (peakLoop_imprecise hpinned) fun found b _ =>
    bind_imprecise (configure_imprecise _ b) fun _ _ _ => trivial

/-! ### Before the bus -/

theorem setAvg_raisesFirst (count : Nat) (s : State) : (setAvg count s).raisesFirst s := by
  unfold setAvg
  split
  · exact raisesFirst_of_imprecise (commit_imprecise _ _ _ _ s) s
  · exact fun _ => rfl

theorem setCt_raisesFirst (sel us : Nat) (s : State) : (setCt sel us s).raisesFirst s := by
  unfold setCt
  split
  · exact fun _ => rfl
  · split
    · split <;> exact raisesFirst_of_imprecise (commit_imprecise _ _ _ _ s) s
    · exact fun _ => rfl

theorem setAlertSources_raisesFirst (l : List Nat) (s : State) : (setAlertSources l s).raisesFirst s := by
  unfold setAlertSources
  split
  · exact fun _ => rfl
  · exact raisesFirst_of_imprecise (commit_imprecise _ _ _ _ s) s

theorem readFlag_raisesFirst (sel : Nat) (s : State) : (readFlag sel s).raisesFirst s := by
  unfold readFlag
  split
  · exact fun _ => rfl
  · exact reshaped_raisesFirst _ (raisesFirst_of_imprecise (regRead_imprecise _ s) s)

theorem readRegister_raisesFirst (a : Byte) (s : State) : (readRegister a s).raisesFirst s := by
  unfold readRegister
  split
  · exact fun _ => rfl
  · exact raisesFirst_of_imprecise (regRead_imprecise _ s) s

/-- R174: PreconditionError and RangeError come before the write. -/
theorem setLimit_raisesFirst (x : Rat) (s : State) : (setLimit x s).raisesFirst s := by
  unfold setLimit
  split
  · exact fun _ => rfl
  · exact bind_raisesFirst (ofExcept_raisesFirst _ s) fun _ t => regWrite_imprecise _ _ t

theorem getLimit_raisesFirst (s : State) : (getLimit s).raisesFirst s := by
  unfold getLimit
  split
  · exact fun _ => rfl
  · exact raisesFirst_of_imprecise (readQuantity_imprecise .limit (rawToLimit · _) s) s

/-- R197: a wait for an edge can fail only for want of a pin. -/
theorem waitEdgeFor_raisesFirst (T : Nat) (s : State) : (waitEdgeFor T s).raisesFirst s := by
  unfold waitEdgeFor
  split
  · trivial
  · exact fun _ => rfl

theorem waitPeakFor_raisesFirst (T : Nat) (thr : Rat) {s : State} (hs : s.legal) :
    (waitPeakFor T thr s).raisesFirst s := by
  by_cases hpin : s.session.alertPin = true
  · rw [waitPeakFor_eq_peakRun T thr hs hpin]
    refine raisesFirst_of_imprecise (bind_imprecise (peakRun_imprecise T thr hs hpin) fun found t _ => ?_) s
    split
    · trivial
    · rfl
  · rw [waitPeakFor, if_neg hpin]
    exact fun _ => rfl

/-- R248, instruction by instruction. -/
theorem exec_raisesFirst (i : Instr) {s : State} (hs : s.legal) :
    ∃ r : Res Result, exec i s = complete r ∧ r.raisesFirst s := by
  have unit : ∀ {r : Res Unit}, r.raisesFirst s → r.unit.raisesFirst s := reshaped_raisesFirst _
  have onBus : ∀ {α : Type} {r : Res α} (f : α → State → Result), r.imprecise →
      (r.bind fun a t => .ok (f a t) t).raisesFirst s := fun f hr =>
    reshaped_raisesFirst f (raisesFirst_of_imprecise hr s)
  cases i with
  | setAvg count => exact ⟨_, rfl, unit (setAvg_raisesFirst _ s)⟩
  | setCt sel us => exact ⟨_, rfl, unit (setCt_raisesFirst _ _ s)⟩
  | setCont b => exact ⟨_, rfl, onBus _ (commit_imprecise _ _ _ _ s)⟩
  | setMeasv b => exact ⟨_, rfl, onBus _ (commit_imprecise _ _ _ _ s)⟩
  | setMeasi b => exact ⟨_, rfl, onBus _ (commit_imprecise _ _ _ _ s)⟩
  | setMode c v m =>
    refine ⟨_, rfl, onBus _ ?_⟩
    rw [setMode_eq_runUpdates]
    exact runUpdates_imprecise _ s
  | getCfg => exact ⟨_, rfl, trivial⟩
  | setAlertSrc a b c d e f => exact ⟨_, rfl, unit (setAlertSources_raisesFirst _ s)⟩
  | getAlert => exact ⟨_, rfl, trivial⟩
  | setApol b => exact ⟨_, rfl, onBus _ (commit_imprecise _ _ _ _ s)⟩
  | setLatch b => exact ⟨_, rfl, onBus _ (setLatch_imprecise b s)⟩
  | readFlag sel => exact ⟨_, rfl, reshaped_raisesFirst _ (readFlag_raisesFirst _ s)⟩
  | raw2v raw => exact ⟨_, rfl, trivial⟩
  | raw2i raw => exact ⟨_, rfl, trivial⟩
  | raw2p raw => exact ⟨_, rfl, trivial⟩
  | v2raw => exact ⟨_, rfl, reshaped_raisesFirst _ (ofExcept_raisesFirst _ s)⟩
  | i2raw => exact ⟨_, rfl, reshaped_raisesFirst _ (ofExcept_raisesFirst _ s)⟩
  | p2raw => exact ⟨_, rfl, reshaped_raisesFirst _ (ofExcept_raisesFirst _ s)⟩
  | readV => exact ⟨_, rfl, onBus _ (readQuantity_imprecise .busVoltage rawToVolts s)⟩
  | readI => exact ⟨_, rfl, onBus _ (readQuantity_imprecise .current (fun _ => rawToAmps) s)⟩
  | readP => exact ⟨_, rfl, onBus _ (readQuantity_imprecise .power rawToWatts s)⟩
  | setAlertLimit => exact ⟨_, rfl, unit (setLimit_raisesFirst _ s)⟩
  | getAlertLimit => exact ⟨_, rfl, reshaped_raisesFirst _ (getLimit_raisesFirst s)⟩
  | autoTmo => exact ⟨_, rfl, trivial⟩
  | waitEdge a => exact ⟨_, rfl, reshaped_raisesFirst _ (waitEdgeFor_raisesFirst _ s)⟩
  | waitFlag a => exact ⟨_, rfl, onBus _ (pollLoop_imprecise _ _)⟩
  | waitPeak a => exact ⟨_, rfl, waitPeakFor_raisesFirst _ _ hs⟩
  | reset => exact ⟨_, rfl, onBus _ (resetDevice_imprecise s)⟩
  | rdReg sel => exact ⟨_, rfl, reshaped_raisesFirst _ (readRegister_raisesFirst sel s)⟩
  | checkId => exact ⟨_, rfl, raisesFirst_of_imprecise (checkIdentity_imprecise s) s⟩

/-- Settles O15: a precise error is raised in the state the operation began in, and raising it changes the response. -/
theorem preciseErrorsLeaveNoTrace : Obligations.PreciseErrorsLeaveNoTrace := by
  intro i s t e hs ht hresp he
  obtain ⟨r, hr, hfirst⟩ := exec_raisesFirst i hs
  obtain rfl := complete_next (hr.symm.trans ht)
  exact answered_of_raisesFirst hs.1 hfirst hresp he

end Sys2Proof.Machine
end

section
/-! Outside the waits for an edge no part of an operation looks at the alert line (R32, R250): with the line at another
level it ends the same way, in a state that differs in the line alone. -/

namespace Sys2Proof.Machine

/-- The same end of a part, with the line at level `b`. -/
def Res.withAlert {α : Type} (r : Res α) (b : Bool) : Res α :=
  match r with
  | .ok a s => .ok a (s.withAlert b)
  | .err e s => .err e (s.withAlert b)

/-- R250: from states that differ in the line alone, the part's ends differ in the line alone. -/
def LineBlind {α : Type} (f : State → Res α) : Prop := ∀ s b, ∃ c, f (s.withAlert b) = (f s).withAlert c

/-! ### What parts are made of -/

section
variable {α β : Type}

/-- A part that computes a value and updates registers, neither from the line. -/
theorem lineBlind_ok {value : State → α} {update : State → State} (hvalue : ∀ s b, value (s.withAlert b) = value s)
    (hupdate : ∀ s b, update (s.withAlert b) = (update s).withAlert b) : LineBlind fun s => .ok (value s) (update s) :=
  fun s b => ⟨b, by simp only [hvalue, hupdate, Res.withAlert]⟩

theorem lineBlind_err (e : OpError) : LineBlind fun s => (.err e s : Res α) := fun _ b => ⟨b, rfl⟩

theorem lineBlind_bind {f : State → Res α} {g : α → State → Res β} (hf : LineBlind f) (hg : ∀ a, LineBlind (g a)) :
    LineBlind fun s => (f s).bind g := by
  intro s b
  obtain ⟨c, hc⟩ := hf s b
  dsimp only
  rw [hc]
  cases f s with
  | ok a t => exact hg a t c
  | err e t => exact ⟨c, rfl⟩

/-- A part that only reshapes the value of the part before. -/
theorem lineBlind_reshaped {f : State → Res α} (g : α → β) (hf : LineBlind f) :
    LineBlind fun s => (f s).bind fun a t => .ok (g a) t :=
  lineBlind_bind hf fun _ => lineBlind_ok (fun _ _ => rfl) fun _ _ => rfl

/-- A register update before a part. -/
theorem lineBlind_after {f : State → Res α} {update : State → State}
    (hupdate : ∀ s b, update (s.withAlert b) = (update s).withAlert b) (hf : LineBlind f) :
    LineBlind fun s => f (update s) := by
  intro s b
  dsimp only
  rw [hupdate]
  exact hf (update s) b

theorem lineBlind_ite {p : State → Prop} [∀ s, Decidable (p s)] {f g : State → Res α}
    (hp : ∀ s b, p (s.withAlert b) ↔ p s) (hf : LineBlind f) (hg : LineBlind g) :
    LineBlind fun s => if p s then f s else g s := by
  intro s b
  simp only [hp]
  split
  · exact hf s b
  · exact hg s b

/-- A pure computation that does not use the line. -/
theorem lineBlind_ofExcept {x : State → Except OpError α} (hx : ∀ s b, x (s.withAlert b) = x s) :
    LineBlind fun s => Res.ofExcept (x s) s := by
  intro s b
  dsimp only
  rw [hx]
  cases x s with
  | ok a => exact ⟨b, rfl⟩
  | error e => exact ⟨b, rfl⟩

end

/-! ### Accesses -/

/-- The draw, and what it does to time and the device, do not depend on the line. -/
theorem atAccess_withAlert (s : State) (b : Bool) :
    (s.withAlert b).atAccess = s.atAccess.withAlert (lineAfter b s.nextDraw.events) := rfl

theorem lineBlind_regRead (r : DevReg) : LineBlind (regRead r) := by
  intro s b
  refine ⟨lineAfter b s.nextDraw.events, ?_⟩
  have hdraw : (s.withAlert b).nextDraw = s.nextDraw := rfl
  unfold regRead
  rw [hdraw, atAccess_withAlert]
  split <;> rfl

theorem lineBlind_regWrite (r : DevReg) (v : Word) : LineBlind (regWrite r v) := by
  intro s b
  refine ⟨lineAfter b s.nextDraw.events, ?_⟩
  have hdraw : (s.withAlert b).nextDraw = s.nextDraw := rfl
  unfold regWrite
  rw [hdraw, atAccess_withAlert]
  split <;> rfl

/-- One RMW and its commit (R101). -/
theorem lineBlind_commit (r : DevReg) (m v : Word) (c : Shadow → Shadow) :
    LineBlind fun s => (rmw r m v s).bind fun _ t => .ok () (t.withShadow (c t.sh)) :=
  lineBlind_bind (lineBlind_bind (lineBlind_regRead r) fun _ => lineBlind_regWrite r _) fun _ =>
    lineBlind_ok (fun _ _ => rfl) fun _ _ => rfl

/-! ### The parts of the operations -/

theorem lineBlind_setAvg (count : Nat) : LineBlind (setAvg count) :=
  lineBlind_ite (fun _ _ => Iff.rfl) (lineBlind_commit _ _ _ fun x => { x with avg := count }) (lineBlind_err _)

theorem lineBlind_setCt (sel us : Nat) : LineBlind (setCt sel us) :=
  lineBlind_ite (fun _ _ => Iff.rfl) (lineBlind_err _) <|
    lineBlind_ite (fun _ _ => Iff.rfl)
      (lineBlind_ite (fun _ _ => Iff.rfl) (lineBlind_commit _ _ _ fun x => { x with vbusct := us })
        (lineBlind_commit _ _ _ fun x => { x with ishct := us }))
      (lineBlind_err _)

theorem lineBlind_setCont (b : Bool) : LineBlind (setCont b) := lineBlind_commit _ _ _ fun x => { x with cont := b }

theorem lineBlind_setMeasV (b : Bool) : LineBlind (setMeasV b) := lineBlind_commit _ _ _ fun x => { x with mv := b }

theorem lineBlind_setMeasI (b : Bool) : LineBlind (setMeasI b) := lineBlind_commit _ _ _ fun x => { x with mc := b }

theorem lineBlind_setMode (c v i : Bool) : LineBlind (setMode c v i) :=
  lineBlind_bind (lineBlind_setCont c) fun _ => lineBlind_bind (lineBlind_setMeasV v) fun _ => lineBlind_setMeasI i

theorem lineBlind_setAlertSources (l : List Nat) : LineBlind (setAlertSources l) := by
  unfold setAlertSources
  split
  · exact lineBlind_err _
  · exact lineBlind_commit _ _ _ fun x => { x with amask := collapse l }

theorem lineBlind_setApol (b : Bool) : LineBlind (setApol b) := lineBlind_commit _ _ _ fun x => { x with apol := b }

theorem lineBlind_writeLatch (b : Bool) : LineBlind (writeLatch b) := lineBlind_commit _ _ _ fun x => { x with latch := b }

theorem lineBlind_setLatch (b : Bool) : LineBlind (setLatch b) :=
  lineBlind_bind (lineBlind_writeLatch false) fun _ =>
    lineBlind_ite (fun _ _ => Iff.rfl) (lineBlind_writeLatch true) (lineBlind_ok (fun _ _ => rfl) fun _ _ => rfl)

theorem lineBlind_readFlag (sel : Nat) : LineBlind (readFlag sel) :=
  lineBlind_ite (fun _ _ => Iff.rfl) (lineBlind_err _) (lineBlind_reshaped _ (lineBlind_regRead _))

/-- One read and its conversion, which uses the session at most (R170 to R172). -/
theorem lineBlind_readQuantity (r : DevReg) (forward : Session → Word → Rat) : LineBlind (readQuantity r forward) :=
  lineBlind_bind (lineBlind_regRead r) fun _ => lineBlind_ok (fun _ _ => rfl) fun _ _ => rfl

theorem lineBlind_setLimit (x : Rat) : LineBlind (setLimit x) := by
  intro s b
  unfold setLimit
  rw [State.withAlert_sh]
  cases unitOf s.sh.amask with
  | none => exact lineBlind_err .precondition s b
  | some u =>
    exact lineBlind_bind (lineBlind_ofExcept (x := fun s => limitToRaw s.session u x) fun _ _ => rfl)
      (fun ny => lineBlind_regWrite .limit ny.1) s b

theorem lineBlind_getLimit : LineBlind getLimit := by
  intro s b
  unfold getLimit
  rw [State.withAlert_sh]
  cases unitOf s.sh.amask with
  | none => exact lineBlind_err .precondition s b
  | some u => exact lineBlind_readQuantity .limit (rawToLimit · u) s b

/-- R200: the polling loop looks at the flag and the deadline. -/
theorem lineBlind_pollLoop (n : Nat) : LineBlind (pollLoop n) := by
  induction n with
  | zero => exact lineBlind_ok (fun _ _ => rfl) fun _ _ => rfl
  | succ n ih =>
    exact lineBlind_bind (lineBlind_regRead .mask) fun me =>
      lineBlind_ite (fun _ _ => Iff.rfl) (lineBlind_ok (fun _ _ => rfl) fun _ _ => rfl) <|
        lineBlind_ite (fun _ _ => Iff.rfl) (lineBlind_ok (fun _ _ => rfl) fun _ _ => rfl) <|
          lineBlind_after (update := fun s => s.withNow (s.now + s.session.pollInterval)) (fun _ _ => rfl) ih

theorem lineBlind_waitFlagFor (a : Bool) : LineBlind fun s => waitFlagFor (resolveTimeout a s) s := fun s b =>
  lineBlind_pollLoop (resolveTimeout a s + 1) (s.armFlag (resolveTimeout a s)) b

theorem lineBlind_resetDevice : LineBlind resetDevice :=
  lineBlind_bind (lineBlind_regWrite _ _) fun _ => lineBlind_ok (fun _ _ => rfl) fun _ _ => rfl

theorem lineBlind_readRegister (a : Byte) : LineBlind (readRegister a) := by
  unfold readRegister
  split
  · exact lineBlind_err _
  · exact lineBlind_regRead _

theorem lineBlind_checkIdentity : LineBlind checkIdentity :=
  lineBlind_bind (lineBlind_regRead _) fun _ => lineBlind_reshaped _ (lineBlind_regRead _)

/-! ### The operations -/

/-- R250, instruction by instruction. -/
theorem exec_lineBlind {i : Instr} (hi : i.watchesLine = false) :
    ∃ f : State → Res Result, LineBlind f ∧ ∀ s, exec i s = complete (f s) := by
  have computed : ∀ {value : State → Result}, (∀ s b, value (s.withAlert b) = value s) → LineBlind fun s => .ok (value s) s :=
    fun hvalue => lineBlind_ok hvalue fun _ _ => rfl
  cases i with
  | setAvg count => exact ⟨_, lineBlind_reshaped _ (lineBlind_setAvg _), fun _ => rfl⟩
  | setCt sel us => exact ⟨_, lineBlind_reshaped _ (lineBlind_setCt _ _), fun _ => rfl⟩
  | setCont b => exact ⟨_, lineBlind_reshaped _ (lineBlind_setCont b), fun _ => rfl⟩
  | setMeasv b => exact ⟨_, lineBlind_reshaped _ (lineBlind_setMeasV b), fun _ => rfl⟩
  | setMeasi b => exact ⟨_, lineBlind_reshaped _ (lineBlind_setMeasI b), fun _ => rfl⟩
  | setMode c v m => exact ⟨_, lineBlind_reshaped _ (lineBlind_setMode c v m), fun _ => rfl⟩
  | getCfg => exact ⟨_, computed fun _ _ => rfl, fun _ => rfl⟩
  | setAlertSrc a b c d e f => exact ⟨_, lineBlind_reshaped _ (lineBlind_setAlertSources _), fun _ => rfl⟩
  | getAlert => exact ⟨_, computed fun _ _ => rfl, fun _ => rfl⟩
  | setApol b => exact ⟨_, lineBlind_reshaped _ (lineBlind_setApol b), fun _ => rfl⟩
  | setLatch b => exact ⟨_, lineBlind_reshaped _ (lineBlind_setLatch b), fun _ => rfl⟩
  | readFlag sel => exact ⟨_, lineBlind_reshaped _ (lineBlind_readFlag _), fun _ => rfl⟩
  | raw2v raw => exact ⟨_, computed fun _ _ => rfl, fun _ => rfl⟩
  | raw2i raw => exact ⟨_, computed fun _ _ => rfl, fun _ => rfl⟩
  | raw2p raw => exact ⟨_, computed fun _ _ => rfl, fun _ => rfl⟩
  | v2raw => exact ⟨_, lineBlind_reshaped _ (lineBlind_ofExcept fun _ _ => rfl), fun _ => rfl⟩
  | i2raw => exact ⟨_, lineBlind_reshaped _ (lineBlind_ofExcept fun _ _ => rfl), fun _ => rfl⟩
  | p2raw => exact ⟨_, lineBlind_reshaped _ (lineBlind_ofExcept fun _ _ => rfl), fun _ => rfl⟩
  | readV => exact ⟨_, lineBlind_reshaped _ (lineBlind_readQuantity .busVoltage rawToVolts), fun _ => rfl⟩
  | readI => exact ⟨_, lineBlind_reshaped _ (lineBlind_readQuantity .current fun _ => rawToAmps), fun _ => rfl⟩
  | readP => exact ⟨_, lineBlind_reshaped _ (lineBlind_readQuantity .power rawToWatts), fun _ => rfl⟩
  | setAlertLimit =>
    exact ⟨_, lineBlind_reshaped _ fun s => lineBlind_setLimit s.opq s, fun _ => rfl⟩
  | getAlertLimit => exact ⟨_, lineBlind_reshaped _ lineBlind_getLimit, fun _ => rfl⟩
  | autoTmo => exact ⟨_, computed fun _ _ => rfl, fun _ => rfl⟩
  | waitFlag a => exact ⟨_, lineBlind_reshaped _ (lineBlind_waitFlagFor a), fun _ => rfl⟩
  | reset => exact ⟨_, lineBlind_reshaped _ lineBlind_resetDevice, fun _ => rfl⟩
  | rdReg sel => exact ⟨_, lineBlind_reshaped _ (lineBlind_readRegister sel), fun _ => rfl⟩
  | checkId => exact ⟨_, lineBlind_checkIdentity, fun _ => rfl⟩
  | waitEdge a => cases hi
  | waitPeak a => cases hi

/-- Answering does not look at the line. -/
theorem answered_withAlert (r : Res Result) (b : Bool) : (r.withAlert b).answered = r.answered.withAlert b := by
  cases r <;> rfl

/-- Settles O20: the two runs end in states that differ in the line alone. -/
theorem alertLineIgnoredOutsideEdgeWaits : Obligations.AlertLineIgnoredOutsideEdgeWaits := by
  intro i s t u b hi ht hu
  obtain ⟨f, hblind, hexec⟩ := exec_lineBlind hi
  obtain ⟨c, hc⟩ := hblind s b
  rw [hexec] at ht hu
  obtain rfl := complete_next ht
  obtain rfl : u = (f s).answered.withAlert c := by
    rw [← answered_withAlert, ← hc]
    exact complete_next hu
  exact ⟨rfl, rfl, rfl, rfl, rfl, rfl⟩

end Sys2Proof.Machine
end

section
/-! The resets and the state after them (R42, R270, R271, R273, R283(a)). -/

namespace Sys2Proof.Machine

theorem step_of_blockReset {s : State} {rest : List HostEvent} (hs : s.fsm = .idle) (hhost : s.host = .blockReset :: rest) :
    step s = .next (s.blockReset rest) := by
  rw [step, if_pos hs, hhost]

theorem step_of_devicePowerOn {s : State} {rest : List HostEvent} (hs : s.fsm = .idle)
    (hhost : s.host = .devicePowerOn :: rest) : step s = .next (s.devicePowerOn rest) := by
  rw [step, if_pos hs, hhost]

/-- Settles O7: block reset puts `Shadow.reset` into the shadow, and names neither the session nor the device. -/
theorem blockResetSetsTheBlock : Obligations.BlockResetSetsTheBlock := by
  intro s rest hs hhost
  refine ⟨s.blockReset rest, step_of_blockReset hs hhost, rfl, ?_⟩
  have hshadow : (s.blockReset rest).sh = Shadow.reset := rfl
  rw [hshadow]
  exact ⟨rfl, rfl, rfl, rfl, rfl, rfl, rfl, rfl, rfl, rfl, rfl, rfl, rfl, rfl, rfl⟩

/-- Settles O8: device power-on resets the device's registers and names no part of the block. -/
theorem devicePowerOnLeavesTheBlock : Obligations.DevicePowerOnLeavesTheBlock := by
  intro s rest hs hhost
  refine ⟨s.devicePowerOn rest, step_of_devicePowerOn hs hhost, ?_⟩
  have hdevice : (s.devicePowerOn rest).dev = s.dev.resetRegs := rfl
  rw [hdevice]
  exact ⟨rfl, rfl, rfl, rfl, rfl, rfl, rfl, rfl, rfl, rfl, rfl, rfl⟩

/-- R42, R80: the shadow's reset values are what a device reset stores. -/
theorem agrees_of_reset {s : State} (hsh : s.sh = Shadow.reset) (hconfig : s.dev.config = 0x6127) (hmask : s.dev.mask = 0) :
    s.agrees := by
  have hvalues : cfgUnpack 0x6127 = (1, 1100, 1100, true, true, true) ∧ (0 : Word).extractLsb' 10 6 = 0 := by decide
  obtain ⟨hunpacked, hsources⟩ := hvalues
  rw [State.agrees, hsh, hconfig, hmask]
  exact ⟨hunpacked, hsources, rfl, rfl⟩

/-- Settles O10: reset values are legal on both sides, and the same. -/
theorem resetStateIsLegalAndAgrees : Obligations.ResetStateIsLegalAndAgrees :=
  ⟨⟨rfl, shadowReset_legal, resetRegs_legal Device.reset⟩, agrees_of_reset rfl rfl rfl⟩

end Sys2Proof.Machine
end

section
/-! Shadow and device stay in agreement as long as no transaction fails (R109, R136, R230, R283). -/

namespace Sys2Proof.Machine

/-! ### Agreement as a matter of stored bits -/

/-- The shadow's sources, APOL and LEN are those of the Mask/Enable word `m` (R36). -/
def Shadow.alertsOf (sh : Shadow) (m : Word) : Prop :=
  m.extractLsb' 10 6 = sh.amask ∧ m.getLsbD 1 = sh.apol ∧ m.getLsbD 0 = sh.latch

/-- The shadow says what registers with these stored bits hold. -/
def Shadow.describes (sh : Shadow) (stored : DevReg → Word) : Prop :=
  cfgUnpack (stored .config) = sh.unpacked ∧ sh.alertsOf (stored .mask)

theorem alertsOf_storedMask {sh : Shadow} {m : Word} : sh.alertsOf (storedMask m) ↔ sh.alertsOf m := by
  have hapol : (storedMask m).getLsbD 1 = m.getLsbD 1 := by simp [storedMask]
  have hlatch : (storedMask m).getLsbD 0 = m.getLsbD 0 := lenOf_storedMask m
  rw [Shadow.alertsOf, extract_storedMask, hapol, hlatch, Shadow.alertsOf]

/-- R283 speaks of stored bits alone, and so not of the flags. -/
theorem agrees_iff_describes {s : State} : s.agrees ↔ s.sh.describes s.dev.stored :=
  and_congr_right fun _ => alertsOf_storedMask.symm

theorem agrees_of_stored {s t : State} (hsh : t.sh = s.sh) (hconfig : t.dev.stored .config = s.dev.stored .config)
    (hmask : t.dev.stored .mask = s.dev.stored .mask) (hs : s.agrees) : t.agrees := by
  rw [agrees_iff_describes] at hs ⊢
  rwa [Shadow.describes, hsh, hconfig, hmask]

/-! ### Updates that carry agreement over -/

/-- Where the shadow describes the registers, it does so after the update of `r` and its commit (R101). -/
structure FieldUpdate.Tracks (u : FieldUpdate) (r : DevReg) : Prop where
  fits : u.fits r
  describes : ∀ (sh : Shadow) (stored : DevReg → Word), sh.describes stored →
    (u.commit sh).describes (Function.update stored r (u.over (stored r)))

theorem tracks_of_records {u : FieldUpdate} (hu : u.Records .config) : u.Tracks .config := by
  refine ⟨hu.fits, fun sh stored ⟨hconfig, hsources, hapol, hlatch⟩ => ⟨?_, ?_⟩⟩
  · rw [Function.update_self]
    exact hu.config rfl _ _ hconfig
  · obtain ⟨hpapol, hplatch⟩ := hu.pins sh
    rw [Function.update_of_ne (by decide), Shadow.alertsOf, hu.otherSources nofun, hpapol, hplatch]
    exact ⟨hsources, hapol, hlatch⟩

theorem fields_track {x : Saved} (hx : x.legal) : ∀ u ∈ x.fields, u.Tracks .config := fun u hu =>
  tracks_of_records (fields_record hx u hu)

/-- The update of a setter is among those that set some legal settings. -/
theorem avgField_tracks {count : Nat} (h : count ∈ Config.avgTable) : (avgField count).Tracks .config := by
  obtain ⟨_, hv, hi, hone⟩ := overrideSettings_legal
  exact fields_track (x := { overrideSettings with avg := count }) ⟨h, hv, hi, hone⟩ _ (by simp [Saved.fields])

theorem busCtField_tracks {us : Nat} (h : us ∈ Config.ctTable) : (busCtField us).Tracks .config := by
  obtain ⟨havg, _, hi, hone⟩ := overrideSettings_legal
  exact fields_track (x := { overrideSettings with vbusct := us }) ⟨havg, h, hi, hone⟩ _ (by simp [Saved.fields])

theorem shuntCtField_tracks {us : Nat} (h : us ∈ Config.ctTable) : (shuntCtField us).Tracks .config := by
  obtain ⟨havg, hv, _, hone⟩ := overrideSettings_legal
  exact fields_track (x := { overrideSettings with ishct := us }) ⟨havg, hv, h, hone⟩ _ (by simp [Saved.fields])

theorem modeFields_track (c v m : Bool) : ∀ u ∈ modeFields c v m, u.Tracks .config := fun u hu =>
  fields_track (x := { overrideSettings with cont := c, mv := v, mc := m }) overrideSettings_legal u
    (by simp [Saved.fields, hu])

theorem contField_tracks (b : Bool) : (contField b).Tracks .config := modeFields_track b b b _ (by simp [modeFields])
theorem measVField_tracks (b : Bool) : (measVField b).Tracks .config := modeFields_track b b b _ (by simp [modeFields])
theorem measIField_tracks (b : Bool) : (measIField b).Tracks .config := modeFields_track b b b _ (by simp [modeFields])

/-- An update of Mask/Enable leaves the settings of Configuration alone. -/
theorem tracks_mask {u : FieldUpdate} (hu : u.fits .mask) (hsettings : ∀ sh : Shadow, (u.commit sh).unpacked = sh.unpacked)
    (halerts : ∀ (sh : Shadow) (w : Word), sh.alertsOf w → (u.commit sh).alertsOf (u.over w)) : u.Tracks .mask := by
  refine ⟨hu, fun sh stored ⟨hconfig, hmask⟩ => ⟨?_, ?_⟩⟩
  · rw [Function.update_of_ne (by decide), hsettings]
    exact hconfig
  · rw [Function.update_self]
    exact halerts sh _ hmask

/-- R83, R86: a bit that an update's mask and value leave out. -/
theorem getLsbD_mergeBits_other {w m v : Word} {i : Nat} (hi : i < 16) (hm : m.getLsbD i = false)
    (hv : v.getLsbD i = false) : (mergeBits w m v).getLsbD i = w.getLsbD i := by
  rw [mergeBits_getLsbD _ _ _ hi, hm, hv]
  simp

/-- R83, R86: a bit that an update replaces. -/
theorem getLsbD_mergeBits_same {w m v : Word} {i : Nat} (hi : i < 16) (hm : m.getLsbD i = true) :
    (mergeBits w m v).getLsbD i = v.getLsbD i := by
  rw [mergeBits_getLsbD _ _ _ hi, hm]
  simp

theorem alertField_tracks (l : List Nat) : (alertField l).Tracks .mask := by
  refine tracks_mask (alertField_fits l) (fun _ => rfl) fun sh w ⟨_, hapol, hlatch⟩ => ⟨extract_sources w _, ?_, ?_⟩
  · exact (getLsbD_mergeBits_other (m := 0xFC00) (by decide) (by decide) (sourceValue_getLsbD _ (by decide))).trans hapol
  · exact (getLsbD_mergeBits_other (m := 0xFC00) (by decide) (by decide) (sourceValue_getLsbD _ (by decide))).trans hlatch

/-- R133, R134: APOL is bit 1 and LEN bit 0, apart from the sources and from each other. -/
theorem pinValue_bits (b : Bool) :
    ((bitValue b 1).extractLsb' 10 6 = 0 ∧ (bitValue b 1).getLsbD 1 = b ∧ (bitValue b 1).getLsbD 0 = false) ∧
      (bitValue b 0).extractLsb' 10 6 = 0 ∧ (bitValue b 0).getLsbD 1 = false ∧ (bitValue b 0).getLsbD 0 = b := by
  cases b <;> decide

theorem apolField_tracks (b : Bool) : (apolField b).Tracks .mask := by
  obtain ⟨⟨hsources, hapol, hlatch⟩, _⟩ := pinValue_bits b
  refine tracks_mask (apolField_fits b) (fun _ => rfl) fun sh w ⟨wsources, _, wlatch⟩ => ⟨?_, ?_, ?_⟩
  · exact (extract_mergeBits_other (m := 0x0002) (by decide) (by decide) hsources).trans wsources
  · exact (getLsbD_mergeBits_same (m := 0x0002) (by decide) (by decide)).trans hapol
  · exact (getLsbD_mergeBits_other (m := 0x0002) (by decide) (by decide) hlatch).trans wlatch

theorem latchField_tracks (b : Bool) : (latchField b).Tracks .mask := by
  obtain ⟨_, hsources, hapol, hlatch⟩ := pinValue_bits b
  refine tracks_mask (latchField_fits b) (fun _ => rfl) fun sh w ⟨wsources, wapol, _⟩ => ⟨?_, ?_, ?_⟩
  · exact (extract_mergeBits_other (m := 0x0001) (by decide) (by decide) hsources).trans wsources
  · exact (getLsbD_mergeBits_other (m := 0x0001) (by decide) (by decide) hapol).trans wapol
  · exact (getLsbD_mergeBits_same (m := 0x0001) (by decide) (by decide)).trans hlatch

/-- R101: an update that ended put its field into the device and into the shadow. -/
theorem FieldUpdate.Tracks.agrees {u : FieldUpdate} {r : DevReg} {s t : State} (hu : u.Tracks r) (h : u.Done r s t)
    (hs : s.agrees) : t.agrees := by
  obtain ⟨_, _, _, _, _, hother⟩ := h.frame
  have hstored : t.dev.stored = Function.update s.dev.stored r (u.over (s.dev.stored r)) := by
    funext q
    by_cases hq : q = r
    · subst hq
      rw [Function.update_self, h.stored]
    · rw [Function.update_of_ne hq, hother q (by simpa using hq)]
  rw [agrees_iff_describes] at hs ⊢
  rw [h.shadow, hstored]
  exact hu.describes _ _ hs

/-! ### Agreement unless a transaction failed -/

/-- R283: the device is legal, and unless a transaction in the bus trace failed, shadow and device agree. -/
def State.agreesUnlessFailed (s : State) : Prop :=
  s.dev.legal ∧ ((∀ x ∈ s.trace, x.failed = false) → s.agrees)

/-- A part that added `k` to the bus trace has to account for agreement only if no transaction in `k` failed. -/
theorem agreesUnlessFailed_append {s t : State} {k : List Txn} (htrace : t.trace = s.trace ++ k) (hl : t.dev.legal)
    (h : (∀ x ∈ k, x.failed = false) → s.agrees → t.agrees) (hs : s.agreesUnlessFailed) : t.agreesUnlessFailed := by
  obtain ⟨_, hagrees⟩ := hs
  refine ⟨hl, fun hnone => ?_⟩
  rw [htrace, List.forall_mem_append] at hnone
  obtain ⟨hbefore, hk⟩ := hnone
  exact h hk (hagrees hbefore)

/-- R72: a part whose last transaction failed has nothing to account for. -/
theorem agreesUnlessFailed_failed {s t : State} {k : List Txn} {x : Txn} (htrace : t.trace = s.trace ++ (k ++ [x]))
    (hx : x.failed = true) (hl : t.dev.legal) (hs : s.agreesUnlessFailed) : t.agreesUnlessFailed :=
  agreesUnlessFailed_append htrace hl (fun hk => by cases hx.symm.trans (hk x (by simp))) hs

theorem regRead_agreesUnlessFailed (s : State) (r : DevReg) (hs : s.agreesUnlessFailed) :
    (regRead r s).state.agreesUnlessFailed := by
  have hlegal := regRead_legal r s hs.1
  obtain ⟨hsh, hstored⟩ := regRead_storesNothing s r
  cases h : regRead r s with
  | ok v t =>
    rw [h] at hlegal hsh hstored
    exact agreesUnlessFailed_append (regRead_ok_trace h) hlegal (fun _ => agrees_of_stored hsh (hstored _) (hstored _)) hs
  | err e t =>
    rw [h] at hlegal
    obtain ⟨htrace, _⟩ := regRead_err_trace h
    exact agreesUnlessFailed_failed (k := []) htrace rfl hlegal hs

/-- The environment and reads touch neither side of the agreement. -/
theorem agreesUnlessFailed_readClosed : ReadClosed fun s t => s.agreesUnlessFailed → t.agreesUnlessFailed where
  refl _ := id
  trans h g := g ∘ h
  read := regRead_agreesUnlessFailed
  env := by
    rintro s t ⟨b, n, l, k, _, rfl⟩
    exact id
  fsm _ _ := id
  wait _ _ := id
  response _ _ := id

/-! ### Writes -/

theorem regWrite_ok_trace {r : DevReg} {v : Word} {s t : State} (h : regWrite r v s = .ok () t) :
    t.trace = s.trace ++ [.write r.addr v] := by
  obtain ⟨_, rfl⟩ := regWrite_ok s h
  simp [State.atAccess, State.drop]

theorem regWrite_err_trace {r : DevReg} {v : Word} {e : OpError} {s t : State} (h : regWrite r v s = .err e t) :
    t.trace = s.trace ++ [.writeFailed r.addr v] := by
  obtain ⟨_, _, rfl⟩ := regWrite_err s h
  simp [State.atAccess, State.drop]

theorem regWrite_err_agreesUnlessFailed {r : DevReg} {v : Word} {e : OpError} {s t : State} (h : regWrite r v s = .err e t)
    (hs : s.agreesUnlessFailed) : t.agreesUnlessFailed := by
  have hlegal := regWrite_legal r v s hs.1
  rw [h] at hlegal
  exact agreesUnlessFailed_failed (k := []) (regWrite_err_trace h) rfl hlegal hs

/-- R174: no part of the agreement is about Alert Limit. -/
theorem writeLimit_agreesUnlessFailed (v : Word) (s : State) (hs : s.agreesUnlessFailed) :
    (regWrite .limit v s).state.agreesUnlessFailed := by
  have hlegal := regWrite_legal .limit v s hs.1
  have hsh := sh_of_accessOnly (regWrite_accessOnly s .limit v)
  cases h : regWrite .limit v s with
  | ok _ t =>
    rw [h] at hlegal hsh
    have hother := regWrite_ok_stored_other h nofun
    exact agreesUnlessFailed_append (regWrite_ok_trace h) hlegal
      (fun _ => agrees_of_stored hsh (hother .config nofun) (hother .mask nofun)) hs
  | err e t => exact regWrite_err_agreesUnlessFailed h hs

/-- R230: a RESET that ended put the reset values into both sides. -/
theorem resetDevice_agreesUnlessFailed (s : State) (hs : s.agreesUnlessFailed) :
    (resetDevice s).state.agreesUnlessFailed := by
  have hlegal := regWrite_legal .config 0x8000 s hs.1
  unfold resetDevice
  cases h : regWrite .config 0x8000 s with
  | ok _ t =>
    rw [h] at hlegal
    have htrace := regWrite_ok_trace h
    have hdev : t.dev = ((s.dev.evolve s.nextDraw).addressed .config).resetRegs :=
      (regWrite_ok_dev h).trans (afterWrite_resetBit _)
    exact agreesUnlessFailed_append (t := t.withShadow Shadow.reset) htrace hlegal
      (fun _ _ => agrees_of_reset rfl (congrArg Device.config hdev) (congrArg Device.mask hdev)) hs
  | err e t => exact regWrite_err_agreesUnlessFailed h hs

theorem run_legal (u : FieldUpdate) (r : DevReg) {s : State} (hl : s.dev.legal) : (u.run r s).state.dev.legal :=
  bind_keeps (P := fun t => t.dev.legal) (rmw_legal r u.value u.mask s hl) fun _ _ _ ht => ht

/-- R109, R136: an update that tracks keeps the agreement, unless its read or its write failed. -/
theorem run_agreesUnlessFailed {u : FieldUpdate} {r : DevReg} (hu : u.Tracks r) (s : State) (hs : s.agreesUnlessFailed) :
    (u.run r s).state.agreesUnlessFailed := by
  cases h : u.run r s with
  | ok _ t =>
    obtain ⟨hdone, _, _, _, htrace, _⟩ := run_ok hs.1 hu.fits h
    exact agreesUnlessFailed_append htrace hdone.legal (fun _ => hu.agrees hdone) hs
  | err e t =>
    obtain ⟨k, x, hstop⟩ := run_err hs.1 hu.fits h
    have hlegal := run_legal u r hs.1
    rw [h] at hlegal
    exact agreesUnlessFailed_failed hstop.trace hstop.failed hlegal hs

theorem bind_agreesUnlessFailed {α β : Type} {r : Res α} {f : α → State → Res β} (hr : r.state.agreesUnlessFailed)
    (hf : ∀ a t, t.agreesUnlessFailed → (f a t).state.agreesUnlessFailed) : (r.bind f).state.agreesUnlessFailed :=
  bind_keeps (P := State.agreesUnlessFailed) hr fun a t _ => hf a t

theorem runUpdates_agreesUnlessFailed {l : List FieldUpdate} (hl : ∀ u ∈ l, u.Tracks .config) (s : State)
    (hs : s.agreesUnlessFailed) : (runUpdates l s).state.agreesUnlessFailed := by
  induction l generalizing s with
  | nil => exact hs
  | cons u l ih =>
    obtain ⟨hu, hrest⟩ := List.forall_mem_cons.mp hl
    exact bind_agreesUnlessFailed (run_agreesUnlessFailed hu s hs) fun _ t ht => ih hrest t ht

/-! ### The setters -/

section
variable {s : State} (hs : s.agreesUnlessFailed)
include hs

theorem setAvg_agreesUnlessFailed (count : Nat) : (setAvg count s).state.agreesUnlessFailed := by
  by_cases h : count ∈ Config.avgTable
  · rw [setAvg_eq_run h]
    exact run_agreesUnlessFailed (avgField_tracks h) s hs
  · rw [setAvg, if_neg h]
    exact hs

theorem setCt_agreesUnlessFailed (sel us : Nat) : (setCt sel us s).state.agreesUnlessFailed := by
  unfold setCt
  split
  · exact hs
  · split
    case isFalse => exact hs
    case isTrue h =>
      split
      · exact run_agreesUnlessFailed (busCtField_tracks h) s hs
      · exact run_agreesUnlessFailed (shuntCtField_tracks h) s hs

theorem setAlertSources_agreesUnlessFailed (l : List Nat) : (setAlertSources l s).state.agreesUnlessFailed := by
  cases h : firstUnrecognized l with
  | none =>
    rw [setAlertSources_eq_run h]
    exact run_agreesUnlessFailed (alertField_tracks l) s hs
  | some e =>
    rw [setAlertSources, h]
    exact hs

theorem setLatch_agreesUnlessFailed (b : Bool) : (setLatch b s).state.agreesUnlessFailed := by
  refine bind_agreesUnlessFailed (run_agreesUnlessFailed (latchField_tracks false) s hs) fun _ t ht => ?_
  split
  · exact run_agreesUnlessFailed (latchField_tracks true) t ht
  · exact ht

theorem setLimit_agreesUnlessFailed (x : Rat) : (setLimit x s).state.agreesUnlessFailed := by
  unfold setLimit
  split
  · exact hs
  · exact bind_agreesUnlessFailed (agreesUnlessFailed_readClosed.ofExcept _ s hs) fun _ t ht =>
      writeLimit_agreesUnlessFailed _ t ht

/-! ### WAIT_PEAK -/

theorem configure_agreesUnlessFailed {x : Saved} (hx : x.legal) : (configure x s).state.agreesUnlessFailed :=
  bind_agreesUnlessFailed (runUpdates_agreesUnlessFailed (fields_track hx) s hs) fun _ t ht =>
    run_agreesUnlessFailed (alertField_tracks _) t ht

/-- R202 to R205: override and restore are updates, and the loop between them reads. -/
theorem waitPeakFor_agreesUnlessFailed (T : Nat) (thr : Rat) (hlegal : s.legal) :
    (waitPeakFor T thr s).state.agreesUnlessFailed := by
  by_cases hpin : s.session.alertPin = true
  · have hstart : s.startPeak.agreesUnlessFailed := hs
    rw [waitPeakFor_eq_peakRun T thr hlegal hpin]
    obtain ⟨_, hsh, _⟩ := hlegal
    refine bind_agreesUnlessFailed (bind_agreesUnlessFailed (configure_agreesUnlessFailed hstart overrideSettings_legal)
      fun _ a ha => bind_agreesUnlessFailed (agreesUnlessFailed_readClosed.peakLoop (fun _ _ => id) T thr _ a ha)
        fun found b hb => bind_agreesUnlessFailed (configure_agreesUnlessFailed hb (settings_legal hsh)) fun _ _ ht => ht)
      fun found t ht => ?_
    split <;> exact ht
  · rw [waitPeakFor, if_neg hpin]
    exact hs

end

/-! ### The operations -/

theorem answered_agreesUnlessFailed {r : Res Result} (hr : r.state.agreesUnlessFailed) : r.answered.agreesUnlessFailed :=
  agreesUnlessFailed_readClosed.answered (fun _ => hr) hr

theorem exec_agreesUnlessFailed {i : Instr} {s t : State} (hlegal : s.legal) (hs : s.agreesUnlessFailed)
    (ht : exec i s = .next t) : t.agreesUnlessFailed := by
  have unit : ∀ {r : Res Unit}, r.state.agreesUnlessFailed → r.unit.answered.agreesUnlessFailed := fun hr =>
    answered_agreesUnlessFailed (bind_agreesUnlessFailed hr fun _ _ h => h)
  have reader : i.readsOnly = true → t.agreesUnlessFailed := fun hi => agreesUnlessFailed_readClosed.exec_reader hi ht hs
  cases i with
  | setAvg count => cases ht; exact unit (setAvg_agreesUnlessFailed hs _)
  | setCt sel us => cases ht; exact unit (setCt_agreesUnlessFailed hs _ _)
  | setCont b => cases ht; exact unit (run_agreesUnlessFailed (contField_tracks b) s hs)
  | setMeasv b => cases ht; exact unit (run_agreesUnlessFailed (measVField_tracks b) s hs)
  | setMeasi b => cases ht; exact unit (run_agreesUnlessFailed (measIField_tracks b) s hs)
  | setMode c v m =>
    cases ht
    refine unit ?_
    rw [setMode_eq_runUpdates]
    exact runUpdates_agreesUnlessFailed (modeFields_track c v m) s hs
  | setAlertSrc a b c d e f => cases ht; exact unit (setAlertSources_agreesUnlessFailed hs _)
  | setApol b => cases ht; exact unit (run_agreesUnlessFailed (apolField_tracks b) s hs)
  | setLatch b => cases ht; exact unit (setLatch_agreesUnlessFailed hs b)
  | setAlertLimit => cases ht; exact unit (setLimit_agreesUnlessFailed hs _)
  | waitPeak a => cases ht; exact answered_agreesUnlessFailed (waitPeakFor_agreesUnlessFailed hs _ _ hlegal)
  | reset => cases ht; exact unit (resetDevice_agreesUnlessFailed s hs)
  | _ => exact reader rfl

/-- Taking up a command empties the bus trace and leaves both sides of the agreement (R255). -/
theorem accept_agreesUnlessFailed {s : State} (hs : s.legal) (hagrees : s.agrees) (rest : List HostEvent) (opt : Nat)
    (opq : Rat) : (s.accept rest opt opq).agreesUnlessFailed := by
  obtain ⟨_, _, hdev⟩ := hs
  exact ⟨hdev, fun _ => hagrees⟩

/-- Settles O12: the operation, or the rejection of an illegal word, keeps agreement unless a transaction failed. -/
theorem operationKeepsShadowAndDeviceInAgreement : Obligations.OperationKeepsShadowAndDeviceInAgreement := by
  intro s t w opt opq rest hs hagrees hhost hstep hnone
  have haccepted := accept_agreesUnlessFailed hs hagrees rest opt opq
  rw [step_of_command hs.1 hhost] at hstep
  obtain ⟨i, _, hexec⟩ | ⟨_, rfl⟩ := runCommand_cases hstep
  · obtain ⟨_, hkept⟩ := exec_agreesUnlessFailed (accept_legal hs rest opt opq) haccepted hexec
    exact hkept hnone
  · exact hagrees

end Sys2Proof.Machine
end
